-- ==== Sys2Proof/Word.lean ====
section
/-! DEFINITION. The word types of the VD-4128: what the manual treats as bits. -/

namespace Sys2Proof

/-- A data, command or register word (00_scope 3.1: 32 bits, byte lane 0 in bits 7:0). -/
abbrev Word := BitVec 32

/-- One byte lane of a word (R1). -/
abbrev Byte := BitVec 8

/-- A 16-bit count that software sees or that wraps: generation, lease ticks, lost count (R4, R7, R145). -/
abbrev Half := BitVec 16

/-- A store word address, 0 to 32767 (R1). -/
abbrev StoreAddr := BitVec 15

/-- A word address within a port's 64 KiB space, PnA[15:2] (R108). -/
abbrev BusAddr := BitVec 14

/-- Four byte enables, bit `i` selecting byte lane `i` (00_scope 3.1). -/
abbrev Enables := BitVec 4

end Sys2Proof
end

