-- ==== Sys2Proof/Config.lean ====
section
/-! DEFINITION. The constants the manual fixes for the part. The spec leaves no value of a running
command open, so there is no opaque constant here; the one value the model chooses is
`unlistedByte` (assumption log entry 1). -/

namespace Sys2Proof.Config

/-- Store pages of 256 bytes (R1, 1.1). -/
def storePages : Nat := 512

/-- Words of one page (1.1). -/
def wordsPerPage : Nat := 64

/-- What a store byte reads as that nothing has written. The start-up sweep makes every byte zero
before a host can read one (R2, R105); before the sweep the contents are undefined (R172).
DESIGN CHOICE, unsafe: log entry 1. -/
def unlistedByte : Byte := 0#8

/-- Entries of the posted write queue (R127). -/
def postedCapacity : Nat := 8

/-- A device record is stored while the notification queue holds at most this many (R144). -/
def deviceRecordRoom : Nat := 14

/-- A MESSAGE is refused once the target's queue holds this many (R154). -/
def messageLimit : Nat := 15

/-- REFCLK periods of one tick (R45). -/
def tickPeriods : Nat := 8000

/-- The fill word after every reset (R120), and what a read held at a reset returns (R121). -/
def resetFill : Word := 0xFFFFFFFF#32

/-- Initial priorities after power-on and warm reset (R138). -/
def portPriority : BitVec 4 := 4#4
/-- Initial priority of the sweep engine after power-on and warm reset (R138). -/
def enginePriority : BitVec 4 := 8#4

/-- The fifteen command codes of 11.4; every other code answers BAD_COMMAND (R175). -/
def commandCodes : List Byte :=
  [0x01#8, 0x02#8, 0x10#8, 0x11#8, 0x12#8, 0x13#8, 0x18#8, 0x19#8, 0x1C#8, 0x20#8,
   0x40#8, 0x41#8, 0x42#8, 0x43#8, 0x44#8]

/-- The window words (byte offset divided by 4) whose full write has a command row of its own: CMD,
NPOP, NMASK, LWARN, FILL, FCLR and SARB (11.1). The aperture words 080h to 0FCh have rows too. -/
def ownedOffsets : List (BitVec 8) :=
  [0x01#8, 0x0C#8, 0x0D#8, 0x0E#8, 0x0F#8, 0x14#8, 0xC0#8]

/-- First word address of the view, byte address 0400h (R108). -/
def viewStart : Nat := 0x100

end Sys2Proof.Config
end

