-- ==== Sys2Proof/Syntax.lean ====
section
/-! DEFINITION. The commands of the block, one constructor per row of spec/opcode_table.json: the
fifteen commands a host writes into CMD, the other accesses of a host's bus, and the events the
device and its reset and strap inputs bring about (95_what_each_step_holds). -/

namespace Sys2Proof

/-- The four host ports (00_scope 1.3). -/
inductive Port where
  | p0 | p1 | p2 | p3
  deriving DecidableEq, Repr

/-- A slot of the region table, 0 to 31 (R4). -/
abbrev RegionIx := Fin 32

/-- An entry of a port's aperture table, 0 to 7 (R109). -/
abbrev ApertureIx := Fin 8

/-- The fields of a command word beside its code (11.4). The three gaps are the bits the layout does
not name: no command reads them, but a read of CMD returns them as written (R175, log entry 9). -/
structure CmdFields where
  /-- Bits 12:8. -/
  region : RegionIx := 0
  /-- Bit 16. -/
  exclusive : Bool := false
  /-- Bit 17. -/
  wait : Bool := false
  /-- Bits 21:20. -/
  target : Port := .p0
  /-- Bits 15:13. -/
  gapLow : BitVec 3 := 0#3
  /-- Bits 19:18. -/
  gapMid : BitVec 2 := 0#2
  /-- Bits 31:22. -/
  gapHigh : BitVec 10 := 0#10
  deriving DecidableEq, Repr

/-- The three placement words of an aperture entry (R109). -/
inductive Placement where
  | view | size | store
  deriving DecidableEq, Repr

/-- A bus access as the port's pins show it: word address, byte enables and data (R108). A read
returns a whole word whatever the enables show. -/
inductive BusAccess where
  | read (addr : BusAddr)
  | write (addr : BusAddr) (be : Enables) (data : Word)
  deriving DecidableEq, Repr

/-- The commands. `p` is the port whose host acts or whose interface is concerned, `r` a region. -/
inductive Instr where
  | attach (p : Port) (c : CmdFields)
  | detach (p : Port) (c : CmdFields)
  | acquire (p : Port) (c : CmdFields)
  | cancel (p : Port) (c : CmdFields)
  | release (p : Port) (c : CmdFields)
  | renew (p : Port) (c : CmdFields)
  | makePrivate (p : Port) (c : CmdFields)
  | relinquish (p : Port) (c : CmdFields)
  | digest (p : Port) (c : CmdFields)
  | message (p : Port) (c : CmdFields)
  | define (p : Port) (c : CmdFields)
  | modify (p : Port) (c : CmdFields)
  | delete (p : Port) (c : CmdFields)
  | reclaim (p : Port) (c : CmdFields)
  | evict (p : Port) (c : CmdFields)
  /-- A CMD write whose code is none of 11.4's; `w` is the whole word. -/
  | badCommand (p : Port) (w : Word)
  | npop (p : Port) (v : Word)
  | fclr (p : Port) (v : Word)
  | nmask (p : Port) (v : Word)
  | lwarn (p : Port) (v : Word)
  | fill (p : Port) (v : Word)
  | sarb (p : Port) (v : Word)
  | aperturePlacementWrite (p : Port) (n : ApertureIx) (f : Placement) (v : Word)
  | attrWrite (p : Port) (n : ApertureIx) (v : Word)
  | pstatRead (p : Port)
  /-- A window write at byte offset `4 * off` that no other row is. -/
  | windowWrite (p : Port) (off : BitVec 8) (be : Enables) (v : Word)
  | viewRead (p : Port) (a : BusAddr)
  | viewWrite (p : Port) (a : BusAddr) (be : Enables) (v : Word)
  | postedWriteAccept (p : Port)
  | postedWriteLanding (p : Port)
  | blockingWriteLanding (p : Port)
  | blockingReadSlot (p : Port)
  | wipeWord
  | digestWord
  | sweepWord
  | startupSweepEnd
  | fenceRequest (p : Port) (r : RegionIx)
  | fenceCompletion (p : Port) (r : RegionIx)
  | drainEnd (r : RegionIx)
  | leaseTick
  | leaseExpiry (r : RegionIx)
  | jobStart
  | wipeCompletion (r : RegionIx)
  | digestCompletion (r : RegionIx)
  /-- PnRST_n going low. -/
  | portReset (p : Port)
  | portResetRelease (p : Port)
  /-- RST_n going low. -/
  | warmReset
  /-- RST_n going high with the straps SUPSEL[1:0] at `supsel`. -/
  | resetRelease (supsel : BitVec 2)
  | powerOn
  deriving DecidableEq, Repr

end Sys2Proof
end

