-- ==== Sys2Proof/WellFormed.lean ====
section
/-! DEFINITION. Which terms of `Instr` stand for an access the device can be offered. Every field of a
command word is in range by its type (R175); three rows carry addresses or words of which only some
belong to the row. -/

namespace Sys2Proof

/-- The window words 080h to 0FCh, the aperture entries (R109). -/
def isApertureOffset (off : BitVec 8) : Bool := 0x20#8 ≤ off && off ≤ 0x3F#8

/-- A full write at this window word is a row of its own, not WINDOW_WRITE (11.1, R174). -/
def isOwnedOffset (off : BitVec 8) : Bool := Config.ownedOffsets.contains off || isApertureOffset off

/-- The code of a command word, bits 7:0 (R175). -/
def commandCode (w : Word) : Byte := w.extractLsb' 0 8

/-- The well-formed commands: a BAD_COMMAND word carries none of the defined codes (R175), a
WINDOW_WRITE is no access another row is (R174), a view access lies at 0400h or above (R108). -/
def Instr.wf : Instr → Bool
  | .badCommand _ w => !Config.commandCodes.contains (commandCode w)
  | .windowWrite _ off be _ => be ≠ 15#4 || !isOwnedOffset off
  | .viewRead _ a => decide (Config.viewStart ≤ a.toNat)
  | .viewWrite _ a _ _ => decide (Config.viewStart ≤ a.toNat)
  | _ => true

end Sys2Proof
end

