-- ==== Sys2Proof/Decode.lean ====
section
/-! DEFINITION. From the bits of a port's bus to the command, and back: the fields of the command word
(11.4), the window map (11.1, R174, R175) and the split of the port space (R108). The opcode table
gives no row any bits, so `decodeTableWord` reads none. -/

namespace Sys2Proof

/-- The port a two-bit field names: 0 to 3 for P0 to P3 (11.4, R170). -/
def Port.ofBits (b : BitVec 2) : Port :=
  if b = 0#2 then .p0 else if b = 1#2 then .p1 else if b = 2#2 then .p2 else .p3

/-- The two-bit field that names a port (11.4, 11.6). -/
def Port.bits : Port → BitVec 2
  | .p0 => 0#2 | .p1 => 1#2 | .p2 => 2#2 | .p3 => 3#2

/-- The command word of these fields under a command code (11.4). -/
def CmdFields.word (c : CmdFields) (code : Byte) : Word :=
  c.gapHigh ++ c.target.bits ++ c.gapMid ++ BitVec.ofBool c.wait ++ BitVec.ofBool c.exclusive ++
    c.gapLow ++ BitVec.ofFin (w := 5) c.region ++ code

/-- The fields of a command word (11.4). -/
def CmdFields.ofWord (w : Word) : CmdFields where
  region := (w.extractLsb' 8 5).toFin
  gapLow := w.extractLsb' 13 3
  exclusive := w.getLsbD 16
  wait := w.getLsbD 17
  gapMid := w.extractLsb' 18 2
  target := .ofBits (w.extractLsb' 20 2)
  gapHigh := w.extractLsb' 22 10

/-- The command a word written to CMD launches (R175, the codes of 11.4). -/
def decodeCommand (p : Port) (w : Word) : Instr :=
  let code := commandCode w
  let c := CmdFields.ofWord w
  if code = 0x01#8 then .attach p c
  else if code = 0x02#8 then .detach p c
  else if code = 0x10#8 then .acquire p c
  else if code = 0x11#8 then .cancel p c
  else if code = 0x12#8 then .release p c
  else if code = 0x13#8 then .renew p c
  else if code = 0x18#8 then .makePrivate p c
  else if code = 0x19#8 then .relinquish p c
  else if code = 0x1C#8 then .digest p c
  else if code = 0x20#8 then .message p c
  else if code = 0x40#8 then .define p c
  else if code = 0x41#8 then .modify p c
  else if code = 0x42#8 then .delete p c
  else if code = 0x43#8 then .reclaim p c
  else if code = 0x44#8 then .evict p c
  else .badCommand p w

/-- The aperture word a write with all enables at window word `off` (020h to 03Fh) takes (R109). -/
def decodeApertureWrite (p : Port) (off : BitVec 8) (v : Word) : Instr :=
  let n : ApertureIx := (off.extractLsb' 2 3).toFin
  let f := off.extractLsb' 0 2
  if f = 0#2 then .aperturePlacementWrite p n .view v
  else if f = 1#2 then .aperturePlacementWrite p n .size v
  else if f = 2#2 then .aperturePlacementWrite p n .store v
  else .attrWrite p n v

/-- The row that a write in the register window is (R174). -/
def decodeWindowWrite (p : Port) (off : BitVec 8) (be : Enables) (v : Word) : Instr :=
  if be ≠ 15#4 then .windowWrite p off be v
  else if off = 0x01#8 then decodeCommand p v
  else if off = 0x0C#8 then .npop p v
  else if off = 0x0D#8 then .nmask p v
  else if off = 0x0E#8 then .lwarn p v
  else if off = 0x0F#8 then .fill p v
  else if off = 0x14#8 then .fclr p v
  else if off = 0xC0#8 then .sarb p v
  else if isApertureOffset off then decodeApertureWrite p off v
  else .windowWrite p off be v

/-- The row a bus access of port `p` is (R108). A window read other than PSTAT's has no row: it
changes nothing, and `Machine.State.windowRead` answers it (log entry 8). -/
def decodeBus (p : Port) : BusAccess → Option Instr
  | .read a =>
    if Config.viewStart ≤ a.toNat then some (.viewRead p a)
    else if a = 0#14 then some (.pstatRead p)
    else none
  | .write a be v =>
    if Config.viewStart ≤ a.toNat then some (.viewWrite p a be v)
    else some (decodeWindowWrite p (a.extractLsb' 0 8) be v)

/-- A write of `v` with all enables at window word `off`. -/
def fullWrite (off : BitVec 8) (v : Word) : BusAccess := .write (off.zeroExtend 14) 15#4 v

/-- The window word of one word of an aperture entry: 080h + 16 n + 4 f in bytes (R109). -/
def apertureOffset (n : ApertureIx) (f : BitVec 2) : BitVec 8 :=
  1#3 ++ BitVec.ofFin (w := 3) n ++ f

/-- The bus access of a command, for the rows a host gives through its bus. -/
def encodeBus : Instr → Option (Port × BusAccess)
  | .attach p c => some (p, fullWrite 0x01#8 (c.word 0x01#8))
  | .detach p c => some (p, fullWrite 0x01#8 (c.word 0x02#8))
  | .acquire p c => some (p, fullWrite 0x01#8 (c.word 0x10#8))
  | .cancel p c => some (p, fullWrite 0x01#8 (c.word 0x11#8))
  | .release p c => some (p, fullWrite 0x01#8 (c.word 0x12#8))
  | .renew p c => some (p, fullWrite 0x01#8 (c.word 0x13#8))
  | .makePrivate p c => some (p, fullWrite 0x01#8 (c.word 0x18#8))
  | .relinquish p c => some (p, fullWrite 0x01#8 (c.word 0x19#8))
  | .digest p c => some (p, fullWrite 0x01#8 (c.word 0x1C#8))
  | .message p c => some (p, fullWrite 0x01#8 (c.word 0x20#8))
  | .define p c => some (p, fullWrite 0x01#8 (c.word 0x40#8))
  | .modify p c => some (p, fullWrite 0x01#8 (c.word 0x41#8))
  | .delete p c => some (p, fullWrite 0x01#8 (c.word 0x42#8))
  | .reclaim p c => some (p, fullWrite 0x01#8 (c.word 0x43#8))
  | .evict p c => some (p, fullWrite 0x01#8 (c.word 0x44#8))
  | .badCommand p w => some (p, fullWrite 0x01#8 w)
  | .npop p v => some (p, fullWrite 0x0C#8 v)
  | .nmask p v => some (p, fullWrite 0x0D#8 v)
  | .lwarn p v => some (p, fullWrite 0x0E#8 v)
  | .fill p v => some (p, fullWrite 0x0F#8 v)
  | .fclr p v => some (p, fullWrite 0x14#8 v)
  | .sarb p v => some (p, fullWrite 0xC0#8 v)
  | .aperturePlacementWrite p n .view v => some (p, fullWrite (apertureOffset n 0#2) v)
  | .aperturePlacementWrite p n .size v => some (p, fullWrite (apertureOffset n 1#2) v)
  | .aperturePlacementWrite p n .store v => some (p, fullWrite (apertureOffset n 2#2) v)
  | .attrWrite p n v => some (p, fullWrite (apertureOffset n 3#2) v)
  | .pstatRead p => some (p, .read 0#14)
  | .windowWrite p off be v => some (p, .write (off.zeroExtend 14) be v)
  | .viewRead p a => some (p, .read a)
  | .viewWrite p a be v => some (p, .write a be v)
  | .postedWriteAccept _ => none
  | .postedWriteLanding _ => none
  | .blockingWriteLanding _ => none
  | .blockingReadSlot _ => none
  | .wipeWord => none
  | .digestWord => none
  | .sweepWord => none
  | .startupSweepEnd => none
  | .fenceRequest _ _ => none
  | .fenceCompletion _ _ => none
  | .drainEnd _ => none
  | .leaseTick => none
  | .leaseExpiry _ => none
  | .jobStart => none
  | .wipeCompletion _ => none
  | .digestCompletion _ => none
  | .portReset _ => none
  | .portResetRelease _ => none
  | .warmReset => none
  | .resetRelease _ => none
  | .powerOn => none

/-- The command is a write of CMD with all enables on port `p`: one that launches a command there (R175). -/
def Instr.writesCmd (c : Instr) (p : Port) : Bool :=
  c.wf && match encodeBus c with
    | some (q, .write a be _) => q = p && a = 0x001#14 && be = 15#4
    | some (_, .read _) => false
    | none => false

/-- The command a word spells by the opcode table's bits. No row of spec/opcode_table.json gives a
bit (its "fields" are empty), so no word spells one. -/
def decodeTableWord (_nbits _w : Nat) : Option Instr := none

end Sys2Proof
end

