-- ==== Sys2Proof/Machine/State.lean ====
section
/-! DEFINITION. The state of the VD-4128 as plain data, block by block (00_scope 1.2), the reasons a
step can stop, and the state after power-on. -/

namespace Sys2Proof.Machine

/-- One value for each of the four ports. -/
structure PerPort (α : Type) where
  p0 : α
  p1 : α
  p2 : α
  p3 : α
  deriving DecidableEq, Repr

/-! ### The region table (R4) -/

/-- A hold's kind of right (R20). -/
inductive Mode where
  | shared | exclusive
  deriving DecidableEq, Repr

/-- A hold record, filed under its port (R20). -/
structure Hold where
  mode : Mode
  /-- Ticks left; absent when the region's lease length is 0 (R46). -/
  remaining : Option Half
  warned : Bool
  wrote : Bool
  deriving DecidableEq, Repr

/-- A port's place in a wait queue (R23). -/
structure WaitEntry where
  port : Port
  mode : Mode
  deriving DecidableEq, Repr

/-- The pages a region covers (R4): base page 0 to 511, count 1 to 512. -/
structure Extent where
  base : Nat
  count : Nat
  deriving DecidableEq, Repr

/-- The two kinds of sweep job (R93). -/
inductive JobKind where
  | wipe | digest
  deriving DecidableEq, Repr

/-- The job attached to a region (R10). -/
structure JobMark where
  kind : JobKind
  /-- False: queued. True: running. -/
  running : Bool
  requester : Option Port
  deriving DecidableEq, Repr

/-- What a drain keeps of the exclusive hold it settles (R11, R39). -/
structure EndedHold where
  wrote : Bool
  /-- False: released. True: revoked. -/
  revoked : Bool
  deriving DecidableEq, Repr

/-- Why a region drains, with the ended hold or requester its reason carries (R66). -/
inductive DrainReason where
  | release (ended : EndedHold)
  | define
  | relinquish (requester : Port)
  | reclaim (requester : Port)
  deriving DecidableEq, Repr

/-- The drain record (R11). -/
structure Drain where
  reason : DrainReason
  awaited : PerPort Bool
  deriving DecidableEq, Repr

/-- The states of a defined region (R5), the drain record standing in DRAINING and the proprietor in
PRIVATE. An UNDEFINED slot has no descriptor. -/
inductive RegionState where
  | free
  | shared
  | exclusive
  | draining (d : Drain)
  | ownedBy (proprietor : Port)
  | wiping
  deriving DecidableEq, Repr

/-- The five attributes of a region (R6). -/
structure Attributes where
  /-- Lease length in ticks; 0 gives holds with no limit. -/
  lease : Half
  members : PerPort Bool
  openRead : Bool
  digestOnRelease : Bool
  mayPrivate : Bool
  deriving DecidableEq, Repr

/-- A present digest (R8). -/
structure DigestTag where
  value : Word
  tag : Half
  deriving DecidableEq, Repr

/-- The descriptor of a defined region (R4). Its index is its place in the table. -/
structure Region where
  state : RegionState
  extent : Extent
  attrs : Attributes
  holders : PerPort (Option Hold)
  queue : List WaitEntry
  generation : Half
  digest : Option DigestTag
  taint : Bool
  job : Option JobMark
  deriving DecidableEq, Repr

/-! ### The port interface (00_scope 1.2) -/

/-- Port states (R160). -/
inductive PortState where
  | detached | attached
  deriving DecidableEq, Repr

/-- Fault kinds of a view access (R156). -/
inductive FaultKind where
  | notReady | unmapped | beyondStore | apertureNoRead | apertureNoWrite
  | readDenied | writeDenied | privateDenied
  deriving DecidableEq, Repr

/-- Direction of a view access (R156). -/
inductive Direction where
  | read | write
  deriving DecidableEq, Repr

/-- A filled fault record (R156). -/
structure FaultRecord where
  kind : FaultKind
  dir : Direction
  viewAddr : Half
  storeAddr : Option (BitVec 18)
  region : Option RegionIx
  count : BitVec 8
  deriving DecidableEq, Repr

/-- What a REVOKED record says the port held (R142). -/
inductive RightHeld where
  | shared | exclusive | proprietor
  deriving DecidableEq, Repr

/-- Why a right was revoked (R142). -/
inductive RevokeReason where
  | lease | reclaim
  deriving DecidableEq, Repr

/-- Notification records with the fields of their kind (R142). DROPPED's reason is always RECLAIM. -/
inductive Record where
  | granted (r : RegionIx) (mode : Mode) (generation : Half) (taint : Bool)
  | revoked (r : RegionIx) (held : RightHeld) (reason : RevokeReason)
  | dropped (r : RegionIx)
  | leaseWarning (r : RegionIx) (ticks : Half)
  | digestDone (r : RegionIx) (generation : Half) (value : Word)
  | wipeDone (r : RegionIx) (generation : Half)
  | fault (kind : FaultKind)
  | message (source : Port) (payload : Word)
  | overflow (lost : Half)
  deriving DecidableEq, Repr

/-- An aperture entry (R109); the view base is `viewPage` times 256. -/
structure Aperture where
  enabled : Bool
  viewPage : BitVec 8
  sizeExp : BitVec 4
  storePage : BitVec 10
  readOk : Bool
  writeOk : Bool
  posted : Bool
  deriving DecidableEq, Repr

/-- An accepted write on its way to the store (R127). -/
structure StoreWrite where
  addr : StoreAddr
  data : Word
  be : Enables
  deriving DecidableEq, Repr

/-- The blocking access (R130). -/
inductive Blocking where
  | read (addr : StoreAddr)
  | write (w : StoreWrite)
  deriving DecidableEq, Repr

/-- A posted write held on the bus for a place in a full queue (R129). -/
structure HeldWrite where
  viewAddr : Half
  write : StoreWrite
  deriving DecidableEq, Repr

/-- A mark of the fence list (R61). -/
structure FenceMark where
  region : RegionIx
  count : Nat
  deriving DecidableEq, Repr

/-- How the port's last bus access completed: what the host saw on PnD (R132). `none` before the first. -/
inductive BusResult where
  | none
  | wrote
  | read (data : Word)
  deriving DecidableEq, Repr

/-- One port interface with its register window. -/
structure PortIface where
  /-- R160. -/
  state : PortState
  /-- PnRST_n is low (R165, R166). -/
  resetLow : Bool
  /-- An access the host has begun while its bus was not served (R166). -/
  waiting : Option Instr
  /-- The CMD write on the bus that the last reset overtook and completed, until it comes up in the queue and
  is dropped there (R166, R179, log entry 22; the model's own). -/
  overtaken : Option Instr
  /-- R132. -/
  bus : BusResult
  /-- CMD, CARG0 to CARG2, CRES and CRESV (R175). -/
  cmd : Word
  carg0 : Word
  carg1 : Word
  carg2 : Word
  cres : BitVec 8
  cresv : Word
  /-- The notification queue, oldest first (R141). -/
  notes : List Record
  /-- The kind mask: bit `k - 1` enables kind `k` (R152). -/
  kindMask : BitVec 8
  /-- R48. -/
  lwarn : Half
  /-- R120. -/
  fill : Word
  /-- R156. -/
  fault : Option FaultRecord
  /-- R150. -/
  popEmpty : Bool
  /-- R114. -/
  apertureRefused : Bool
  /-- R109. -/
  apertures : Vector Aperture 8
  /-- The posted write queue, oldest first (R127). -/
  posted : List StoreWrite
  /-- R130. -/
  blocking : Option Blocking
  /-- R129. -/
  held : Option HeldWrite
  /-- R61. -/
  fences : List FenceMark
  deriving DecidableEq, Repr

/-! ### Sweep engine and store arbiter -/

/-- R104. -/
inductive PartState where
  | starting | ready
  deriving DecidableEq, Repr

/-- A job record (R93). -/
structure Job where
  kind : JobKind
  region : RegionIx
  requester : Option Port
  deriving DecidableEq, Repr

/-- The job in progress: its extent, the words done, and the CRC register of a DIGEST (R95, R99). -/
structure Progress where
  job : Job
  extent : Extent
  done : Nat
  crc : Word
  deriving DecidableEq, Repr

/-- A completion the engine has reported and the lock engine has not yet taken (R95). -/
inductive Report where
  | wipe (r : RegionIx)
  | digest (r : RegionIx) (value : Word)
  deriving DecidableEq, Repr

/-- The clients of the store arbiter: ports as clients 0 to 3, the sweep engine as client 4 (R137). -/
inductive Client where
  | port (p : Port)
  | engine
  deriving DecidableEq, Repr

/-- One priority, 0 to 15, for each client (R138). -/
structure Priorities where
  ports : PerPort (BitVec 4)
  engine : BitVec 4
  deriving DecidableEq, Repr

/-- The store as its bytes at byte addresses 0 to 1FFFFh: a list of address and byte pairs, addresses
strictly rising, no byte equal to `Config.unlistedByte` listed (R1). -/
abbrev Memory := List Host.Cell

/-! ### The machine -/

/-- The whole part. -/
structure State where
  /-- The commands that wait, first in first out (the model's own). -/
  pending : List Instr
  /-- RST_n is low (R171). -/
  rstLow : Bool
  /-- The supervisor sampled at RST_n's last rise; none while RST_n is low (R170). -/
  supervisor : Option Port
  /-- The lease divider, 0 to 7999 (R45). -/
  divider : Nat
  /-- R104. -/
  part : PartState
  /-- The wipe list of the start-up sweep (R105, R106). -/
  wipeList : List Extent
  /-- Words of the wipe list the sweep has written (R105). -/
  swept : Nat
  /-- R93. -/
  jobQueue : List Job
  /-- R93. -/
  current : Option Progress
  /-- Starts of jobs reported and not yet taken by the lock engine, oldest first (R95, R106). -/
  starts : List RegionIx
  /-- Completions reported and not yet taken, oldest first (R95). -/
  reports : List Report
  /-- R138. -/
  initialPrio : Priorities
  /-- R138. -/
  effectivePrio : Priorities
  /-- R1. -/
  store : Memory
  /-- The region table; an UNDEFINED slot is `none` (R4). -/
  slots : Vector (Option Region) 32
  /-- Fence requests sent and not yet taken by their port interface (R62, R64). -/
  fenceRequests : List (Port × RegionIx)
  /-- Fence completions reported and not yet taken by the lock engine (R63, R64). -/
  completions : List (Port × RegionIx)
  ports : PerPort PortIface
  deriving DecidableEq, Repr

/-- Why a step stops with a fault. -/
inductive Fault where
  /-- Raised by a host's bus access on a port whose bus still carries an earlier access. R126: the port
  offers no other access until the held one completes, so no host can do this. Safe: the model stops
  where the device is never brought (log entry 5). -/
  | busHeld (p : Port)
  deriving DecidableEq, Repr

/-- Why a step is refused. -/
inductive Refusal where
  /-- Raised by an arm of `exec` whose row has no meaning yet; no arm is left so. Safe. -/
  | notModelled (mnemonic : String)
  /-- Raised by a term that is not well-formed (`Instr.wf`): its operands name an access that another
  row of the table is, so it stands for no command. Safe (log entry 6). -/
  | illFormed
  deriving DecidableEq, Repr

/-- The same value for every port. -/
def PerPort.all {α : Type} (x : α) : PerPort α := ⟨x, x, x, x⟩

/-- An aperture entry after every reset (R122). -/
def Aperture.atReset : Aperture := ⟨false, 0#8, 0#4, 0#10, false, false, false⟩

/-- A port interface after power-on (R165's values, R175, R122, R159); the pin PnRST_n is high and no
access is waiting or overtaken (log entry 2). -/
def PortIface.atReset : PortIface where
  state := .detached
  resetLow := false
  waiting := none
  overtaken := none
  bus := .none
  cmd := 0#32
  carg0 := 0#32
  carg1 := 0#32
  carg2 := 0#32
  cres := 0#8
  cresv := 0#32
  notes := []
  kindMask := 0xFF#8
  lwarn := 0#16
  fill := Config.resetFill
  fault := none
  popEmpty := false
  apertureRefused := false
  apertures := Vector.replicate 8 .atReset
  posted := []
  blocking := none
  held := none
  fences := []

/-- The arbiter's priorities after power-on and warm reset (R138). -/
def Priorities.atReset : Priorities := ⟨.all Config.portPriority, Config.enginePriority⟩

/-- The machine right after power-on, RST_n still low (R172, R105, R19, R138): the part is STARTING,
the wipe list is the whole store, and no supervisor has been sampled. -/
def State.reset : State where
  pending := []
  rstLow := true
  supervisor := none
  divider := 0
  part := .starting
  wipeList := [⟨0, Config.storePages⟩]
  swept := 0
  jobQueue := []
  current := none
  starts := []
  reports := []
  initialPrio := .atReset
  effectivePrio := .atReset
  store := []
  slots := Vector.replicate 32 none
  fenceRequests := []
  completions := []
  ports := .all .atReset

end Sys2Proof.Machine
end

