-- ==== Sys2Proof/Machine/Memory.lean ====
section
/-! DEFINITION. The shared store (R1, R2): bytes at byte addresses 0 to 1FFFFh in one canonical list. -/

namespace Sys2Proof.Machine

/-- The byte at byte address `a`. -/
def Memory.readByte : Memory → Nat → Byte
  | [], _ => Config.unlistedByte
  | (k, b) :: m, a => if k = a then b else Memory.readByte m a

/-- `b` in front of the list `m` at address `a`, unless it is what an unlisted address reads as. -/
def Memory.enter (a : Nat) (b : Byte) (m : Memory) : Memory :=
  if b = Config.unlistedByte then m else (a, b) :: m

/-- The store with byte `b` at byte address `a`, in canonical form again. -/
def Memory.writeByte : Memory → Nat → Byte → Memory
  | [], a, b => Memory.enter a b []
  | (k, c) :: m, a, b =>
    if a < k then Memory.enter a b ((k, c) :: m)
    else if a = k then Memory.enter a b m
    else (k, c) :: Memory.writeByte m a b

/-- The canonical form above a lower bound: addresses strictly rising from `lo`, all inside the store,
no byte listed that an unlisted address reads as. -/
def Memory.wfFrom : Nat → Memory → Bool
  | _, [] => true
  | lo, (k, b) :: m => decide (lo ≤ k) && decide (k < 4 * 32768) && b != Config.unlistedByte &&
      Memory.wfFrom (k + 1) m

/-- The canonical form of the store. -/
def Memory.wf (m : Memory) : Bool := Memory.wfFrom 0 m

/-- The byte address of lane `lane` of store word `w` (R1: word w holds bytes 4w to 4w+3). -/
def byteAddr (w : StoreAddr) (lane : Nat) : Nat := 4 * w.toNat + lane

/-- The store word at word address `w`, lane 0 in bits 7:0 (R1). -/
def Memory.readWord (m : Memory) (w : StoreAddr) : Word :=
  m.readByte (byteAddr w 3) ++ m.readByte (byteAddr w 2) ++ m.readByte (byteAddr w 1) ++
    m.readByte (byteAddr w 0)

/-- Lane `i` of a data word (00_scope 3.1). -/
def lane (v : Word) (i : Nat) : Byte := v.extractLsb' (8 * i) 8

/-- The store with lane `i` of word `w` replaced from `v` if the enables select it (R1). -/
def Memory.writeLane (m : Memory) (w : StoreAddr) (be : Enables) (v : Word) (i : Nat) : Memory :=
  if be.getLsbD i then m.writeByte (byteAddr w i) (lane v i) else m

/-- The landing of a write: the enabled lanes take the data's lanes, the others keep theirs (R1). -/
def Memory.writeWord (m : Memory) (w : StoreAddr) (be : Enables) (v : Word) : Memory :=
  [0, 1, 2, 3].foldl (fun m i => m.writeLane w be v i) m

end Sys2Proof.Machine
end

