-- ==== Sys2Proof/Machine/Ops.lean ====
section
/-! DEFINITION. The named operations every meaning is written over: reading and replacing a port
interface or a region slot, offering a notification record, the bus of a port, the store arbiter. -/

namespace Sys2Proof.Machine

/-! ### Per-port values -/

/-- The four ports in ascending order. -/
def allPorts : List Port := [.p0, .p1, .p2, .p3]

/-- The value for port `p`. -/
def PerPort.get {α : Type} (v : PerPort α) : Port → α
  | .p0 => v.p0 | .p1 => v.p1 | .p2 => v.p2 | .p3 => v.p3

/-- The collection with port `p`'s value replaced. -/
def PerPort.set {α : Type} (v : PerPort α) (p : Port) (x : α) : PerPort α :=
  match p with
  | .p0 => { v with p0 := x }
  | .p1 => { v with p1 := x }
  | .p2 => { v with p2 := x }
  | .p3 => { v with p3 := x }

/-- A value for each port computed from the port. -/
def PerPort.ofFun {α : Type} (f : Port → α) : PerPort α := ⟨f .p0, f .p1, f .p2, f .p3⟩

/-- The set of ports holding exactly `p`. -/
def onlyPort (p : Port) : PerPort Bool := (PerPort.all false).set p true

/-- The set of ports is empty. -/
def PerPort.isEmpty (v : PerPort Bool) : Bool := !(v.p0 || v.p1 || v.p2 || v.p3)

/-! ### The state's parts -/

/-- The interface of port `p`. -/
def State.port (s : State) (p : Port) : PortIface := s.ports.get p

/-- The state with port `p`'s interface replaced. -/
def State.setPort (s : State) (p : Port) (i : PortIface) : State := { s with ports := s.ports.set p i }

/-- The state with port `p`'s interface changed by `f`. -/
def State.updPort (s : State) (p : Port) (f : PortIface → PortIface) : State := s.setPort p (f (s.port p))

/-- The descriptor in slot `r`; none is UNDEFINED (R4). -/
def State.slot (s : State) (r : RegionIx) : Option Region := s.slots[r]

/-- The state with slot `r` replaced. -/
def State.setSlot (s : State) (r : RegionIx) (x : Option Region) : State :=
  { s with slots := s.slots.set r.val x r.isLt }

/-- The state with the descriptor of slot `r`, if defined, changed by `f`. -/
def State.updRegion (s : State) (r : RegionIx) (f : Region → Region) : State :=
  s.setSlot r ((s.slot r).map f)

/-- The slots in ascending order of index. -/
def allRegions : List RegionIx := List.finRange 32

/-- The page lies in the extent (R3). -/
def Extent.hasPage (e : Extent) (page : Nat) : Bool := decide (e.base ≤ page) && decide (page < e.base + e.count)

/-- Two extents share a page (R13). -/
def Extent.overlaps (a b : Extent) : Bool :=
  decide (max a.base b.base < min (a.base + a.count) (b.base + b.count))

/-- The region whose extent contains the page, if any (R3). -/
def State.regionOfPage (s : State) (page : Nat) : Option RegionIx :=
  allRegions.find? fun r => match s.slot r with
    | some g => g.extent.hasPage page
    | none => false

/-- The region of a store word (R3; 64 words to the page). -/
def State.regionOf (s : State) (w : StoreAddr) : Option RegionIx := s.regionOfPage (w.toNat / Config.wordsPerPage)

/-! ### Notifications (chapter 9) -/

/-- The record is the OVERFLOW marker. -/
def Record.isOverflow : Record → Bool
  | .overflow _ => true
  | _ => false

/-- One more loss counted into the marker, stopping at 65535; another record is as it was (R145). -/
def Record.countLoss : Record → Record
  | .overflow n => .overflow (if n = 0xFFFF#16 then n else n + 1#16)
  | x => x

/-- The append rule for a device record at an ATTACHED port's queue (R144, R145). -/
def appendDevice (q : List Record) (x : Record) : List Record :=
  if q.any Record.isOverflow then q.map Record.countLoss
  else if q.length ≤ Config.deviceRecordRoom then q ++ [x]
  else q ++ [.overflow 1#16]

/-- A device record offered to port `p`: stored or counted if the port is ATTACHED, discarded if it is
DETACHED (R144, R147). -/
def State.offer (s : State) (p : Port) (x : Record) : State :=
  s.updPort p fun i => match i.state with
    | .attached => { i with notes := appendDevice i.notes x }
    | .detached => i

/-! ### The bus of a port -/

/-- The port interface serves its bus: neither RST_n nor PnRST_n is low (R166, R171). -/
def State.served (s : State) (p : Port) : Bool := !s.rstLow && !(s.port p).resetLow

/-- The device holds an access of the port: a blocking access or a posted write waiting for a place
(R126, R132). -/
def PortIface.busHeld (i : PortIface) : Bool := i.blocking.isSome || i.held.isSome

/-- The port's last access completed as `b`. -/
def State.complete (s : State) (p : Port) (b : BusResult) : State := s.updPort p fun i => { i with bus := b }

/-- A host's access `c` on port `p`, whose effect when the interface takes it is `take`. While the bus
is not served the access waits and is taken when service returns (R166, R171), but for the CMD write that
the reset overtook, which is over (R166, R179). -/
def hostAccess (p : Port) (c : Instr) (s : State) (take : State → State) : Host.Outcome State Fault Refusal :=
  if !c.wf then .refused .illFormed
  else if s.served p then
    if (s.port p).busHeld then .fault (.busHeld p) else .next (take s)
  else if (s.port p).overtaken = some c then .next (s.updPort p fun i => { i with overtaken := none })
  else if (s.port p).waiting.isSome then .fault (.busHeld p)
  else .next (s.updPort p fun i => { i with waiting := some c })

/-! ### The store arbiter (8.7) -/

/-- The clients in ascending order of number. -/
def allClients : List Client := [.port .p0, .port .p1, .port .p2, .port .p3, .engine]

/-- A client's priority. -/
def Priorities.of (v : Priorities) : Client → BitVec 4
  | .port p => v.ports.get p
  | .engine => v.engine

/-- The client has a store operation to present (R133, R137). The engine writes its sweep only once
RST_n is high (R105). -/
def State.waits (s : State) : Client → Bool
  | .port p => !(s.port p).posted.isEmpty || (s.port p).blocking.isSome
  | .engine => (s.part = .starting && !s.rstLow) || s.current.isSome

/-- The better of two clients: the lower effective priority, the earlier one on a tie (R139). -/
def State.better (s : State) (best : Option Client) (c : Client) : Option Client :=
  match best with
  | none => some c
  | some b => if s.effectivePrio.of c < s.effectivePrio.of b then some c else some b

/-- The client the next grant goes to (R139). -/
def State.chosen (s : State) : Option Client := (allClients.filter s.waits).foldl s.better none

/-- A client's effective priority after a grant to `g`: its initial one if granted, one better (not
below 0) if passed over, kept if it did not wait (R139). -/
def State.aged (s : State) (g c : Client) : BitVec 4 :=
  let e := s.effectivePrio.of c
  if c = g then s.initialPrio.of c
  else if s.waits c then (if e = 0#4 then 0#4 else e - 1#4)
  else e

/-- The next store slot, if the arbiter gives it to `g`: the state with the priorities aged (R139). -/
def State.grantSlot (s : State) (g : Client) : Option State :=
  if s.chosen = some g then
    some { s with effectivePrio := ⟨.ofFun fun p => s.aged g (.port p), s.aged g .engine⟩ }
  else none

end Sys2Proof.Machine
end

