-- ==== Sys2Proof/Machine/Operands.lean ====
section
/-! DEFINITION. Operand forms: the argument words (11.5), the aperture words (11.8), view matching and
translation (R115 to R117), and the access check at acceptance (R124). -/

namespace Sys2Proof.Machine

/-! ### Argument words -/

/-- The extent CARG0 carries for DEFINE: base page in bits 9:0, page count in bits 25:16 (11.5). -/
def extentOf (carg0 : Word) : Extent := ⟨(carg0.extractLsb' 0 10).toNat, (carg0.extractLsb' 16 10).toNat⟩

/-- The attributes CARG1 and CARG2 carry for DEFINE and MODIFY (11.5). -/
def attributesOf (carg1 carg2 : Word) : Attributes where
  lease := carg1.extractLsb' 0 16
  members := ⟨carg2.getLsbD 0, carg2.getLsbD 1, carg2.getLsbD 2, carg2.getLsbD 3⟩
  openRead := carg2.getLsbD 8
  digestOnRelease := carg2.getLsbD 9
  mayPrivate := carg2.getLsbD 10

/-- The extent is one DEFINE refuses with BAD_EXTENT (R13). -/
def Extent.bad (e : Extent) : Bool := e.count == 0 || decide (Config.storePages < e.base + e.count)

/-- The five priorities a SARB word carries (11.10). -/
def prioritiesOf (v : Word) : Priorities :=
  ⟨⟨v.extractLsb' 0 4, v.extractLsb' 4 4, v.extractLsb' 8 4, v.extractLsb' 12 4⟩, v.extractLsb' 16 4⟩

/-! ### Aperture entries -/

/-- Entry `n` of the port's aperture table. -/
def PortIface.aperture (i : PortIface) (n : ApertureIx) : Aperture := i.apertures[n]

/-- The interface with entry `n` replaced. -/
def PortIface.setAperture (i : PortIface) (n : ApertureIx) (a : Aperture) : PortIface :=
  { i with apertures := i.apertures.set n.val a n.isLt }

/-- The entry's view base, a multiple of 256 (R109). -/
def Aperture.base (a : Aperture) : Nat := a.viewPage.toNat * 256

/-- The entry's size in bytes, 256 times 2 to the size exponent (R109). -/
def Aperture.size (a : Aperture) : Nat := 256 * 2 ^ a.sizeExp.toNat

/-- The entry with one placement field replaced; bits outside the field are ignored (R111, 11.8). -/
def Aperture.place (a : Aperture) (f : Placement) (v : Word) : Aperture :=
  match f with
  | .view => { a with viewPage := v.extractLsb' 8 8 }
  | .size => { a with sizeExp := v.extractLsb' 0 4 }
  | .store => { a with storePage := v.extractLsb' 0 10 }

/-- The entry with the read, write and posted flags of an ATTR word (11.8). -/
def Aperture.withFlags (a : Aperture) (v : Word) : Aperture :=
  { a with readOk := v.getLsbD 1, writeOk := v.getLsbD 2, posted := v.getLsbD 3 }

/-- The entry's flags are those of the ATTR word. -/
def Aperture.sameFlags (a : Aperture) (v : Word) : Bool :=
  a.readOk == v.getLsbD 1 && a.writeOk == v.getLsbD 2 && a.posted == v.getLsbD 3

/-- The five conditions on which an enable is refused (R113). -/
def Aperture.placementBad (a : Aperture) : Bool :=
  decide (8 < a.sizeExp.toNat) || a.base % a.size != 0 || decide (a.base < 0x400) ||
    decide (0x10000 < a.base + a.size) || decide (511 < a.storePage.toNat)

/-- The entry is enabled and its range holds view byte address `addr` (R115). -/
def Aperture.covers (a : Aperture) (addr : Nat) : Bool :=
  a.enabled && decide (a.base ≤ addr) && decide (addr < a.base + a.size)

/-! ### The view decoder (R117) -/

/-- The byte address of a bus access: four times PnA[15:2] (R108). -/
def viewByte (a : BusAddr) : Half := a ++ 0#2

/-- What the view decoder says of an access. -/
inductive Decoded where
  /-- The access fails with this kind; the store byte address is absent for the first two kinds. -/
  | fails (kind : FaultKind) (storeAddr : Option (BitVec 18))
  /-- The access names this store word, through an entry whose posted flag is this. -/
  | passes (w : StoreAddr) (posted : Bool)
  deriving DecidableEq, Repr

/-- The lowest-numbered enabled entry that matches (R115). -/
def PortIface.matchEntry (i : PortIface) (addr : Nat) : Option Aperture :=
  i.apertures.toList.find? fun a => a.covers addr

/-- The store byte address an entry translates a view address to (R116). -/
def Aperture.translate (a : Aperture) (addr : Nat) : Nat := a.storePage.toNat * 256 + (addr - a.base)

/-- The decoder's checks in their order (R117). -/
def State.decodeView (s : State) (p : Port) (dir : Direction) (a : BusAddr) : Decoded :=
  let addr := (viewByte a).toNat
  if s.part = .starting then .fails .notReady none
  else match (s.port p).matchEntry addr with
    | none => .fails .unmapped none
    | some e =>
      let at18 : BitVec 18 := BitVec.ofNat 18 (e.translate addr)
      if 0x20000 ≤ e.translate addr then .fails .beyondStore (some at18)
      else match dir with
        | .read => if e.readOk then .passes (BitVec.ofNat 15 (e.translate addr / 4)) e.posted
            else .fails .apertureNoRead (some at18)
        | .write => if e.writeOk then .passes (BitVec.ofNat 15 (e.translate addr / 4)) e.posted
            else .fails .apertureNoWrite (some at18)

/-- The store byte address of a store word, as the fault record shows it. -/
def faultAddr (w : StoreAddr) : BitVec 18 := BitVec.ofNat 18 (4 * w.toNat)

/-- The region a fault record names: that of the store address, if there is one inside the store (R156). -/
def State.faultRegion (s : State) : Option (BitVec 18) → Option RegionIx
  | none => none
  | some a => if 0x20000 ≤ a.toNat then none else s.regionOf (BitVec.ofNat 15 (a.toNat / 4))

/-! ### The access check (R124) -/

/-- The fault kind a denied access outside PRIVATE gets. -/
def Direction.denied : Direction → FaultKind
  | .read => .readDenied
  | .write => .writeDenied

/-- The port's hold on the region, in FREE, SHARED, EXCLUSIVE and DRAINING (R124). -/
def Region.checkHolder (g : Region) (p : Port) (dir : Direction) : Option FaultKind :=
  match (g.holders.get p).map Hold.mode, dir with
  | some .exclusive, _ => none
  | some .shared, .read => none
  | some .shared, .write => some .writeDenied
  | none, .read => if g.attrs.openRead then none else some .readDenied
  | none, .write => some .writeDenied

/-- The access check against one region: `none` permits, `some k` fails with kind `k` (R124). -/
def Region.check (g : Region) (p : Port) (dir : Direction) : Option FaultKind :=
  match g.state with
  | .ownedBy q => if p = q then none else some .privateDenied
  | .wiping => some dir.denied
  | .free => g.checkHolder p dir
  | .shared => g.checkHolder p dir
  | .exclusive => g.checkHolder p dir
  | .draining _ => g.checkHolder p dir

/-- The access check of an access to a store word; open store permits everything (R3, R124). -/
def State.check (s : State) (p : Port) (dir : Direction) (w : StoreAddr) : Option FaultKind :=
  match (s.regionOf w).bind s.slot with
  | none => none
  | some g => g.check p dir

end Sys2Proof.Machine
end

