-- ==== Sys2Proof/Machine/Flags.lean ====
section
/-! DEFINITION. Status words and lines: the result codes (11.5), every word a window read shows (11.3 to
11.10, R174 to R178), the interrupt line (R153) and the ready line (R132). -/

namespace Sys2Proof.Machine

/-- The results of a command (11.5). -/
inductive Result where
  | done | granted | queued | busy | withdrawn | notHeld | notQueued | alreadyHeld | alreadyQueued
  | noRegion | notMember | regionPrivate | noLease | notSupervisor | overlap | badExtent | badCommand
  | notAttached | alreadyAttached | starting | noTarget | targetFull | notProprietor | notPermitted
  | pending | inUse
  deriving DecidableEq, Repr

/-- The code CRES shows (11.5). -/
def Result.code : Result → BitVec 8
  | .done => 0x00#8 | .granted => 0x01#8 | .queued => 0x02#8 | .busy => 0x03#8
  | .withdrawn => 0x04#8 | .notHeld => 0x05#8 | .notQueued => 0x06#8 | .alreadyHeld => 0x07#8
  | .alreadyQueued => 0x08#8 | .noRegion => 0x09#8 | .notMember => 0x0A#8 | .regionPrivate => 0x0B#8
  | .noLease => 0x0C#8 | .notSupervisor => 0x0D#8 | .overlap => 0x0E#8 | .badExtent => 0x0F#8
  | .badCommand => 0x10#8 | .notAttached => 0x11#8 | .alreadyAttached => 0x12#8 | .starting => 0x13#8
  | .noTarget => 0x14#8 | .targetFull => 0x15#8 | .notProprietor => 0x16#8 | .notPermitted => 0x17#8
  | .pending => 0x18#8 | .inUse => 0x19#8

/-- The value `n` placed at bit `at_` of a register word. -/
def field (n at_ : Nat) : Word := BitVec.ofNat 32 (n * 2 ^ at_)

/-- A one-bit field. -/
def flag (b : Bool) (at_ : Nat) : Word := field b.toNat at_

/-- The mode bit: 1 EXCLUSIVE, 0 SHARED (11.5, 11.6). -/
def Mode.bit : Mode → Nat
  | .shared => 0
  | .exclusive => 1

/-- CRESV after a grant: generation, taint and mode (11.5). -/
def grantValue (generation : Half) (taint : Bool) (m : Mode) : Word :=
  field generation.toNat 0 ||| flag taint 16 ||| field m.bit 17

/-- The number of a port. -/
def portNumber (p : Port) : Nat := p.bits.toNat

/-! ### PSTAT (11.3, R176) -/

/-- PSTAT of port `p` as it stands. -/
def State.pstat (s : State) (p : Port) : Word :=
  let i := s.port p
  flag (i.state = .attached) 0 ||| flag (s.supervisor = some p) 1 ||| flag (s.part = .ready) 2 |||
    flag i.fault.isSome 3 ||| flag i.popEmpty 4 ||| flag i.apertureRefused 5 |||
    field i.posted.length 8 ||| field i.notes.length 16

/-! ### The head record (11.6, R177) -/

/-- Fault kind codes (11.7). -/
def FaultKind.code : FaultKind → Nat
  | .notReady => 1 | .unmapped => 2 | .beyondStore => 3 | .apertureNoRead => 4 | .apertureNoWrite => 5
  | .readDenied => 6 | .writeDenied => 7 | .privateDenied => 8

/-- Record kind codes (R142). -/
def Record.kind : Record → Nat
  | .granted .. => 1 | .revoked .. => 2 | .dropped .. => 3 | .leaseWarning .. => 4
  | .digestDone .. => 5 | .wipeDone .. => 6 | .fault .. => 7 | .message .. => 8 | .overflow .. => 15

/-- The mode field of a REVOKED record (11.6). -/
def RightHeld.code : RightHeld → Nat
  | .shared => 0 | .exclusive => 1 | .proprietor => 2

/-- The reason field (11.6). -/
def RevokeReason.code : RevokeReason → Nat
  | .lease => 1 | .reclaim => 2

/-- NHEAD0 of a record (11.6). -/
def Record.word0 (x : Record) : Word :=
  field x.kind 0 ||| match x with
    | .granted r m _ t => field r.val 8 ||| field m.bit 16 ||| flag t 18
    | .revoked r h w => field r.val 8 ||| field h.code 16 ||| field w.code 20
    | .dropped r => field r.val 8 ||| field RevokeReason.reclaim.code 20
    | .leaseWarning r _ => field r.val 8
    | .digestDone r _ _ => field r.val 8
    | .wipeDone r _ => field r.val 8
    | .fault k => field k.code 24
    | .message _ _ => 0#32
    | .overflow _ => 0#32

/-- NHEAD1 of a record (11.6). -/
def Record.word1 : Record → Word
  | .granted _ _ g _ => field g.toNat 0
  | .revoked .. => 0#32
  | .dropped .. => 0#32
  | .leaseWarning _ t => field t.toNat 0
  | .digestDone _ g _ => field g.toNat 0
  | .wipeDone _ g => field g.toNat 0
  | .fault .. => 0#32
  | .message q _ => field (portNumber q) 0
  | .overflow n => field n.toNat 0

/-- NHEAD2 of a record (11.6). -/
def Record.word2 : Record → Word
  | .digestDone _ _ v => v
  | .message _ v => v
  | .granted .. => 0#32
  | .revoked .. => 0#32
  | .dropped .. => 0#32
  | .leaseWarning .. => 0#32
  | .wipeDone .. => 0#32
  | .fault .. => 0#32
  | .overflow .. => 0#32

/-- A word of the head record, 0 while the queue is empty (R148). -/
def PortIface.headWord (i : PortIface) (w : Record → Word) : Word :=
  match i.notes with
  | [] => 0#32
  | x :: _ => w x

/-- NMASK as read: bit n for kind n (11.6, R152). -/
def PortIface.nmaskWord (i : PortIface) : Word := field i.kindMask.toNat 1

/-! ### The fault record (11.7) -/

/-- FREC0 (11.7). -/
def FaultRecord.word0 (f : FaultRecord) : Word :=
  field f.kind.code 0 ||| flag (f.dir = .write) 4 ||| flag f.storeAddr.isSome 5 ||| flag f.region.isSome 6 |||
    field (f.region.elim 0 Fin.val) 8 ||| field f.count.toNat 16

/-- FREC0 to FREC2 of the port, 0 while the record is empty (11.7). -/
def PortIface.frec (i : PortIface) (w : FaultRecord → Word) : Word := i.fault.elim 0#32 w

/-! ### Aperture words (11.8) -/

/-- ATTR as read (11.8). -/
def Aperture.attrWord (a : Aperture) : Word :=
  flag a.enabled 0 ||| flag a.readOk 1 ||| flag a.writeOk 2 ||| flag a.posted 3

/-- The four words of an entry, numbered 0 to 3 (11.8). -/
def Aperture.word (a : Aperture) (w : Nat) : Word :=
  if w = 0 then field a.viewPage.toNat 8
  else if w = 1 then field a.sizeExp.toNat 0
  else if w = 2 then field a.storePage.toNat 0
  else a.attrWord

/-! ### The region view (11.9, R18, R178) -/

/-- The state code of a defined region (11.9). -/
def RegionState.code : RegionState → Nat
  | .free => 1 | .shared => 2 | .exclusive => 3 | .draining _ => 4 | .ownedBy _ => 5 | .wiping => 6

/-- The job code (11.9). -/
def jobCode : Option JobMark → Nat
  | none => 0
  | some ⟨.digest, false, _⟩ => 1
  | some ⟨.digest, true, _⟩ => 2
  | some ⟨.wipe, false, _⟩ => 3
  | some ⟨.wipe, true, _⟩ => 4

/-- The holder's mode is EXCLUSIVE. -/
def Region.exclusiveBy (g : Region) (p : Port) : Bool := (g.holders.get p).map Hold.mode == some .exclusive

/-- The exclusive flag: a hold is EXCLUSIVE (R18). -/
def Region.exclusiveFlag (g : Region) : Bool := allPorts.any g.exclusiveBy

/-- The proprietor in PRIVATE (R4). -/
def RegionState.proprietor : RegionState → Option Port
  | .ownedBy p => some p
  | .free => none
  | .shared => none
  | .exclusive => none
  | .draining _ => none
  | .wiping => none

/-- The state word of a defined region (11.9). -/
def Region.stateWord (g : Region) : Word :=
  field g.state.code 0 ||| flag g.holders.p0.isSome 4 ||| flag g.holders.p1.isSome 5 |||
    flag g.holders.p2.isSome 6 ||| flag g.holders.p3.isSome 7 ||| flag g.exclusiveFlag 8 |||
    field g.queue.length 12 ||| field (g.state.proprietor.elim 0 portNumber) 16 |||
    flag g.taint 20 ||| field (jobCode g.job) 24

/-- The four words of a region view entry, numbered 0 to 3 (11.9). -/
def Region.viewWord (g : Region) (w : Nat) : Word :=
  if w = 0 then g.stateWord
  else if w = 1 then field g.generation.toNat 0
  else if w = 2 then g.digest.elim 0#32 fun d => flag true 31 ||| field d.tag.toNat 0
  else g.digest.elim 0#32 DigestTag.value

/-- A region view word; an UNDEFINED slot reads 0 (R178). -/
def State.regionWord (s : State) (r : RegionIx) (w : Nat) : Word :=
  (s.slot r).elim 0#32 fun g => g.viewWord w

/-- SARB as read: the initial priorities (11.10, R140). -/
def State.sarbWord (s : State) : Word :=
  field (s.initialPrio.of (.port .p0)).toNat 0 ||| field (s.initialPrio.of (.port .p1)).toNat 4 |||
    field (s.initialPrio.of (.port .p2)).toNat 8 ||| field (s.initialPrio.of (.port .p3)).toNat 12 |||
    field (s.initialPrio.of .engine).toNat 16

/-! ### Window reads (R174) -/

/-- The word a read at window word `off` (byte offset `4 * off`) returns on port `p`. A PSTAT read also
clears two flags, which PSTAT_READ does (R176). NPOP, FCLR and unused offsets read 0. -/
def State.windowRead (s : State) (p : Port) (off : BitVec 8) : Word :=
  let i := s.port p
  let n := off.toNat
  if n = 0x00 then s.pstat p
  else if n = 0x01 then i.cmd
  else if n = 0x02 then i.carg0
  else if n = 0x03 then i.carg1
  else if n = 0x04 then i.carg2
  else if n = 0x05 then i.cres.zeroExtend 32
  else if n = 0x06 then i.cresv
  else if n = 0x08 then i.headWord Record.word0
  else if n = 0x09 then i.headWord Record.word1
  else if n = 0x0A then i.headWord Record.word2
  else if n = 0x0D then i.nmaskWord
  else if n = 0x0E then i.lwarn.zeroExtend 32
  else if n = 0x0F then i.fill
  else if n = 0x10 then i.frec FaultRecord.word0
  else if n = 0x11 then i.frec fun f => f.viewAddr.zeroExtend 32
  else if n = 0x12 then i.frec fun f => (f.storeAddr.getD 0#18).zeroExtend 32
  else if 0x20 ≤ n ∧ n < 0x40 then (i.aperture (off.extractLsb' 2 3).toFin).word (n % 4)
  else if 0x40 ≤ n ∧ n < 0xC0 then s.regionWord ((off - 0x40#8).extractLsb' 2 5).toFin (n % 4)
  else if n = 0xC0 then s.sarbWord
  else 0#32

/-! ### Lines -/

/-- The record drives the interrupt: the marker always, another kind if the mask enables it (R153). -/
def PortIface.drives (i : PortIface) (x : Record) : Bool := x.isOverflow || i.kindMask.getLsbD (x.kind - 1)

/-- PnINT_n is low (R153). -/
def PortIface.intLow (i : PortIface) : Bool := i.notes.any i.drives

/-- PnRDY is high: the bus is served and the device holds no access (R132, R166, R171). -/
def State.ready (s : State) (p : Port) : Bool := s.served p && !(s.port p).busHeld

end Sys2Proof.Machine
end

