-- ==== Sys2Proof/Machine/LockEngine.lean ====
section
/-! DEFINITION. The lock engine's shared operations: holds and the grant pass (chapter 2), fences and
drains with the settle (chapter 4), job queueing (R93), and the taking of a command word (R175). -/

namespace Sys2Proof.Machine

/-! ### Holds and the grant pass -/

/-- A new hold: the lease length as remaining ticks, both flags clear (R20, R46). -/
def newHold (lease : Half) (m : Mode) : Hold :=
  { mode := m, remaining := if lease = 0#16 then none else some lease, warned := false, wrote := false }

/-- The region's state once a hold of this mode is created (R28). -/
def Mode.heldState : Mode → RegionState
  | .shared => .shared
  | .exclusive => .exclusive

/-- The region with a hold created for the port (R28, R32). -/
def Region.grant (g : Region) (e : WaitEntry) : Region :=
  { g with holders := g.holders.set e.port (some (newHold g.attrs.lease e.mode)), state := e.mode.heldState }

/-- Some port holds the region. -/
def Region.held (g : Region) : Bool :=
  g.holders.p0.isSome || g.holders.p1.isSome || g.holders.p2.isSome || g.holders.p3.isSome

/-- The port has a wait entry (R23). -/
def Region.waitsFor (g : Region) (p : Port) : Bool := g.queue.any fun e => e.port = p

/-- The region without the port's wait entry, the others keeping their order (R24). -/
def Region.withdraw (g : Region) (p : Port) : Region := { g with queue := g.queue.filter fun e => e.port ≠ p }

/-- The table of R27: an ACQUIRE that passed every check is grantable. -/
def Region.grantable (g : Region) : Mode → Bool
  | .shared => match g.state with
    | .free => g.queue.isEmpty
    | .shared => g.queue.isEmpty
    | _ => false
  | .exclusive => match g.state with
    | .free => g.queue.isEmpty && g.job.isNone
    | _ => false

/-- The entry asks for SHARED. -/
def WaitEntry.isShared (e : WaitEntry) : Bool := e.mode = .shared

/-- The entries a grant pass grants, from the front of the queue (R31). -/
def Region.passRun (g : Region) : List WaitEntry :=
  match g.state, g.queue with
  | .free, e :: rest =>
    if e.isShared then (e :: rest).takeWhile WaitEntry.isShared
    else if g.job.isNone then [e] else []
  | .shared, e :: rest => (e :: rest).takeWhile WaitEntry.isShared
  | _, _ => []

/-- The region after its grant pass: the granted entries leave the queue and become holds (R32). -/
def Region.afterPass (g : Region) : Region :=
  g.passRun.foldl Region.grant { g with queue := g.queue.drop g.passRun.length }

/-- The GRANTED record of a granted entry (R32). -/
def Region.grantRecord (g : Region) (r : RegionIx) (e : WaitEntry) : Record :=
  .granted r e.mode g.generation g.taint

/-- The grant pass on region `r` (R30 to R32). -/
def State.grantPass (s : State) (r : RegionIx) : State :=
  match s.slot r with
  | none => s
  | some g => g.passRun.foldl (fun t e => t.offer e.port (g.grantRecord r e)) (s.setSlot r (some g.afterPass))

/-- The region without the port's hold. -/
def Region.dropHold (g : Region) (p : Port) : Region := { g with holders := g.holders.set p none }

/-- The end of a SHARED hold, before any pass: the last one leaves the region FREE (R38). -/
def Region.endShared (g : Region) (p : Port) : Region :=
  { g.dropHold p with state := if (g.dropHold p).held then .shared else .free }

/-- The end of an EXCLUSIVE hold: DRAINING with reason RELEASE (R39). -/
def Region.endExclusive (g : Region) (p : Port) (ended : EndedHold) (awaited : PerPort Bool) : Region :=
  { g.dropHold p with state := .draining ⟨.release ended, awaited⟩ }

/-! ### Fences, jobs and drains -/

/-- A fence request for region `r` sent to port `p` (R61). -/
def State.sendFence (s : State) (r : RegionIx) (p : Port) : State :=
  { s with fenceRequests := s.fenceRequests ++ [(p, r)] }

/-- A fence completion for region `r` reported by port `p` (R62 to R64). -/
def State.reportFence (s : State) (p : Port) (r : RegionIx) : State :=
  { s with completions := s.completions ++ [(p, r)] }

/-- The CRC register at the start of a job (R99). -/
def crcStart : Word := 0xFFFFFFFF#32

/-- A job mark set to running (R10, R95). -/
def JobMark.started (j : JobMark) : JobMark := { j with running := true }

/-- The sweep engine is IDLE: no sweep and no job in progress (R94). -/
def State.engineIdle (s : State) : Bool := s.part = .ready && s.current.isNone

/-- The engine takes job `j` out of the queue, which leaves `rest`, makes it the job in progress and reports
its start to the lock engine (R95). -/
def State.startJob (s : State) (j : Job) (rest : List Job) : State :=
  match s.slot j.region with
  | none => s
  | some g =>
    { s with jobQueue := rest, current := some ⟨j, g.extent, 0, crcStart⟩, starts := s.starts ++ [j.region] }

/-- The lock engine takes the oldest start reported to it, if there is one: the region's job field changes
from queued to running (R10, R95). -/
def State.takeStart (s : State) : State :=
  match s.starts with
  | [] => s
  | r :: rest =>
    { s.updRegion r (fun g => { g with job := g.job.map JobMark.started }) with starts := rest }

/-- An IDLE engine starts the head of its queue, if there is one (R94, R95). -/
def State.startHead (s : State) : State :=
  match s.jobQueue with
  | [] => s
  | j :: rest => if s.engineIdle then s.startJob j rest else s

/-- The next head of the queue after a job's last word (R94, R95). Its start is taken in the same event, as
6.8 shows, where no older start waits before it (log entry 13). -/
def State.startNext (s : State) : State :=
  if s.starts.isEmpty then s.startHead.takeStart else s.startHead

/-- The job joins the tail of the queue, and the region's job field becomes queued (R93). -/
def State.enqueueJob (s : State) (r : RegionIx) (k : JobKind) (q : Option Port) : State :=
  { s.updRegion r (fun g => { g with job := some ⟨k, false, q⟩ }) with
    jobQueue := s.jobQueue ++ [⟨k, r, q⟩] }

/-- The lock engine queues a job, and an IDLE engine takes it in progress at once; the region's job field
reads queued after the event, until the lock engine takes the start (R93 to R95, R101, 12.6, 12.8). An IDLE
engine's queue is empty (`State.engineLaw`), so the job that starts is the one that joined. -/
def State.queueJob (s : State) (r : RegionIx) (k : JobKind) (q : Option Port) : State :=
  if s.jobQueue.isEmpty then (s.enqueueJob r k q).startHead else s.enqueueJob r k q

/-- The region as the settle's steps 1, 2 and 4 leave it (R68). -/
def Region.settled (g : Region) (e : EndedHold) : Region :=
  { g with
    generation := if e.wrote then g.generation + 1#16 else g.generation
    digest := if e.wrote then none else g.digest
    taint := if e.revoked then (e.wrote || g.taint) else false
    state := .free }

/-- Step 3 of the settle: the automatic DIGEST job (R68). -/
def State.autoDigest (s : State) (r : RegionIx) (g : Region) (e : EndedHold) : State :=
  if e.wrote && g.attrs.digestOnRelease then s.queueJob r .digest none else s

/-- The settle of an ended EXCLUSIVE hold, with its grant pass (R68, R69). -/
def State.settle (s : State) (r : RegionIx) (g : Region) (e : EndedHold) : State :=
  ((s.setSlot r (some (g.settled e))).autoDigest r g e).grantPass r

/-- The region a DEFINE drain leaves (R67, R70). -/
def Region.opened (g : Region) : Region :=
  { g with state := .free, generation := 0#16, digest := none, taint := false }

/-- The end of a RELINQUISH or RECLAIM drain: WIPING with a WIPE job queued (R70). -/
def State.startWipe (s : State) (r : RegionIx) (g : Region) (q : Port) : State :=
  (s.setSlot r (some { g with state := .wiping })).queueJob r .wipe (some q)

/-- The end of a drain, continued by its reason (R67). -/
def State.endDrain (s : State) (r : RegionIx) (g : Region) (d : Drain) : State :=
  match d.reason with
  | .release e => s.settle r g e
  | .define => (s.setSlot r (some g.opened)).grantPass r
  | .relinquish q => s.startWipe r g q
  | .reclaim q => s.startWipe r g q

/-- The condition on which a drain ends (R67). -/
def Region.drainOver (g : Region) (d : Drain) : Bool :=
  d.awaited.isEmpty && match d.reason with
    | .reclaim _ => g.job.isNone
    | .release _ => true
    | .define => true
    | .relinquish _ => true

/-- The lock engine decides the end of region `r`'s drain, if it drains (R67). -/
def State.decideDrain (s : State) (r : RegionIx) : State :=
  match s.slot r with
  | none => s
  | some g => match g.state with
    | .draining d => if g.drainOver d then s.endDrain r g d else s
    | .free => s
    | .shared => s
    | .exclusive => s
    | .ownedBy _ => s
    | .wiping => s

/-- The end of port `p`'s hold on region `r` by RELEASE, DETACH or lease expiry, before the pass that
follows the end of a SHARED hold: an EXCLUSIVE hold drains with a fence request to the port (R38, R39). -/
def State.endHold (s : State) (r : RegionIx) (p : Port) (revoked : Bool) : State :=
  match s.slot r with
  | none => s
  | some g => match g.holders.get p with
    | none => s
    | some h => match h.mode with
      | .shared => s.setSlot r (some (g.endShared p))
      | .exclusive =>
        (s.setSlot r (some (g.endExclusive p ⟨h.wrote, revoked⟩ (onlyPort p)))).sendFence r p

/-- The end of port `p`'s hold or wait on region `r` at DETACH, with the pass it runs (R41, R163). -/
def State.leaveRegion (s : State) (p : Port) (r : RegionIx) : State :=
  match s.slot r with
  | none => s
  | some g =>
    if (g.holders.get p).isSome then (s.endHold r p false).grantPass r
    else if g.waitsFor p then (s.setSlot r (some (g.withdraw p))).grantPass r
    else s

/-- The end of port `p`'s hold or wait on region `r` at a port reset: an EXCLUSIVE hold drains with its
fence complete and settles at once (R44, R165). -/
def State.cutRegion (s : State) (p : Port) (r : RegionIx) : State :=
  match s.slot r with
  | none => s
  | some g => match g.holders.get p with
    | some h => match h.mode with
      | .shared => (s.setSlot r (some (g.endShared p))).grantPass r
      | .exclusive =>
        (s.setSlot r (some (g.endExclusive p ⟨h.wrote, true⟩ (.all false)))).decideDrain r
    | none => if g.waitsFor p then (s.setSlot r (some (g.withdraw p))).grantPass r else s

/-! ### Commands -/

/-- What a command decides: the state it leaves, the result and the result value. -/
abbrev Decision := State × Result × Word

/-- A decision that changes nothing (R12, R25: a refused command changes no state). -/
def refuse (s : State) (x : Result) : Decision := (s, x, 0#32)

/-- The launch of a command: CMD keeps the word, the lock engine decides, CRES and CRESV take the
result, and the bus write completes (R175). -/
def launch (p : Port) (word : Word) (decide : State → Decision) (s : State) : State :=
  let d := decide (s.updPort p fun i => { i with cmd := word })
  d.1.updPort p fun i => { i with cres := d.2.1.code, cresv := d.2.2, bus := .wrote }

/-- The checks STARTING and NOT_ATTACHED that begin every command but ATTACH (R12, R25, R154). -/
def State.whenAttached (s : State) (p : Port) (k : Decision) : Decision :=
  if s.part = .starting then refuse s .starting
  else if (s.port p).state = .detached then refuse s .notAttached
  else k

/-- The three checks that begin a port's region commands (R25). -/
def State.onRegion (s : State) (p : Port) (r : RegionIx) (k : Region → Decision) : Decision :=
  s.whenAttached p <| match s.slot r with
    | none => refuse s .noRegion
    | some g => k g

/-- The three checks that begin the supervisor's commands (R12). -/
def State.asSupervisor (s : State) (p : Port) (k : Decision) : Decision :=
  s.whenAttached p <| if s.supervisor = some p then k else refuse s .notSupervisor

end Sys2Proof.Machine
end

