-- ==== Sys2Proof/Machine/LeaseUnit.lean ====
section
/-! DEFINITION. The lease unit (chapter 3): the divider, the tick, warnings and expiry. -/

namespace Sys2Proof.Machine

/-- The remaining count one tick later (R46). -/
def tickDown (n : Half) : Half := if n = 0#16 then 0#16 else n - 1#16

/-- The hold one tick later; a hold with no count is passed by (R46). -/
def Hold.tick (h : Hold) : Hold := { h with remaining := h.remaining.map tickDown }

/-- The tick that left the hold as it is warns its port with threshold `t` (R49), also right after a RENEW whose
lease length is `t` + 1, as R50 has it against R57's words (DESIGN CHOICE, log entry 23). -/
def Hold.warns (h : Hold) (t : Half) : Bool :=
  h.remaining == some t && t != 0#16 && !h.warned

/-- The hold's count has reached 0 (R52). -/
def Hold.expired (h : Hold) : Bool := h.remaining == some 0#16

/-- Port `p`'s hold on region `r` at a tick: the count goes down, and the warning of R49 is decided. -/
def State.tickHold (s : State) (r : RegionIx) (p : Port) : State :=
  match s.slot r with
  | none => s
  | some g => match g.holders.get p with
    | none => s
    | some h =>
      if h.tick.warns (s.port p).lwarn then
        (s.setSlot r (some { g with holders := g.holders.set p (some { h.tick with warned := true }) })).offer p
          (.leaseWarning r (s.port p).lwarn)
      else s.setSlot r (some { g with holders := g.holders.set p (some h.tick) })

/-- The right a REVOKED record of an expired hold names (R52). -/
def Mode.leaseRight : Mode → RightHeld
  | .shared => .shared
  | .exclusive => .exclusive

/-- Port `p`'s hold on region `r`, if its count is 0, is revoked: the REVOKED record, then the end of
the hold (R52 to R54). -/
def State.expireHold (s : State) (r : RegionIx) (p : Port) : State :=
  match s.slot r with
  | none => s
  | some g => match g.holders.get p with
    | none => s
    | some h =>
      if h.expired then (s.offer p (.revoked r h.mode.leaseRight .lease)).endHold r p true else s

/-- Some hold on the region has come to 0. -/
def Region.anyExpired (g : Region) : Bool :=
  allPorts.any fun p => match g.holders.get p with
    | none => false
    | some h => h.expired

/-- Every hold of region `r` whose count is 0 is revoked, then the pass runs once (R55). -/
def State.expireRegion (s : State) (r : RegionIx) : State :=
  match s.slot r with
  | none => s
  | some g =>
    if g.anyExpired then (allPorts.foldl (fun t p => t.expireHold r p) s).grantPass r else s

/-- One tick in one region (R46, R55). A hold granted or renewed with lease length 1 expires at its first tick, as
R46 and R47 have it against R57's table (DESIGN CHOICE, log entry 23). -/
def State.tickRegion (s : State) (r : RegionIx) : State :=
  (allPorts.foldl (fun t p => t.tickHold r p) s).expireRegion r

/-- The tick the lock engine takes: every leased hold of every region, in ascending order of region index
(R45, R46, R55). The divider starts again from 0. -/
def State.takeTick (s : State) : State := allRegions.foldl State.tickRegion { s with divider := 0 }

/-- One REFCLK period with no command taken: the divider counts, and its 8000th period gives the tick.
While RST_n is low it is held (R45, log entry 7). -/
def State.refclkPeriod (s : State) : State :=
  if s.rstLow then s
  else if s.divider + 1 < Config.tickPeriods then { s with divider := s.divider + 1 }
  else s.takeTick

/-! ### LEASE_TICK -/

/-- The divider completes its 8000th period and the tick is taken; none is given while RST_n is low (R45). -/
def execLeaseTick (s : State) : Host.Outcome State Fault Refusal :=
  .next (if s.rstLow then s else s.takeTick)

/-! ### LEASE_EXPIRY -/

/-- The expiry in one region of the holds whose count is 0. The tick that brings a count to 0 expires the
hold in its own event (R52), so this finds none in a run (log entry 4). -/
def execLeaseExpiry (r : RegionIx) (s : State) : Host.Outcome State Fault Refusal := .next (s.expireRegion r)

end Sys2Proof.Machine
end

