-- ==== Sys2Proof/Machine/PortCommands.lean ====
section
/-! DEFINITION. The commands open to every port (chapters 2, 3, 5, 6, 9, 10). Each is what the lock
engine decides, the launch through CMD, and the host's bus write. -/

namespace Sys2Proof.Machine

/-! ### attach -/

/-- What the lock engine decides (R161). The port becomes ATTACHED and nothing else changes. -/
def decideAttach (p : Port) (_c : CmdFields) (s : State) : Decision :=
  if s.part = .starting then refuse s .starting
  else if (s.port p).state = .attached then refuse s .alreadyAttached
  else (s.updPort p fun i => { i with state := .attached }, .done, 0#32)

/-- The command taken by the port interface (R175). -/
def takeAttach (p : Port) (c : CmdFields) (s : State) : State :=
  launch p (c.word 0x01#8) (decideAttach p c) s

/-- A host's write of this command word (R161). -/
def execAttach (p : Port) (c : CmdFields) (s : State) : Host.Outcome State Fault Refusal :=
  hostAccess p (.attach p c) s (takeAttach p c)

/-! ### detach -/

/-- What the lock engine decides (R163, R41). Every hold of the port ends as a release, every wait entry is withdrawn,
region by region in ascending order; then the port is DETACHED. -/
def decideDetach (p : Port) (_c : CmdFields) (s : State) : Decision :=
  s.whenAttached p
    ((allRegions.foldl (fun t r => t.leaveRegion p r) s).updPort p fun i => { i with state := .detached },
      .done, 0#32)

/-- The command taken by the port interface (R175). -/
def takeDetach (p : Port) (c : CmdFields) (s : State) : State :=
  launch p (c.word 0x02#8) (decideDetach p c) s

/-- A host's write of this command word (R163, R41). -/
def execDetach (p : Port) (c : CmdFields) (s : State) : Host.Outcome State Fault Refusal :=
  hostAccess p (.detach p c) s (takeDetach p c)

/-! ### acquire -/

/-- What the lock engine decides (R26 to R29). The checks, then GRANTED, QUEUED or BUSY. -/
def decideAcquire (p : Port) (c : CmdFields) (s : State) : Decision :=
  let mode := if c.exclusive then Mode.exclusive else .shared
  s.onRegion p c.region fun g =>
    if !g.attrs.members.get p then refuse s .notMember
    else if g.state.proprietor.isSome then refuse s .regionPrivate
    else if (g.holders.get p).isSome then refuse s .alreadyHeld
    else if g.waitsFor p then refuse s .alreadyQueued
    else if g.grantable mode then
      (s.setSlot c.region (some (g.grant ⟨p, mode⟩)), .granted, grantValue g.generation g.taint mode)
    else if c.wait then
      (s.setSlot c.region (some { g with queue := g.queue ++ [⟨p, mode⟩] }), .queued,
        field (g.queue.length + 1) 0)
    else refuse s .busy

/-- The command taken by the port interface (R175). -/
def takeAcquire (p : Port) (c : CmdFields) (s : State) : State :=
  launch p (c.word 0x10#8) (decideAcquire p c) s

/-- A host's write of this command word (R26 to R29). -/
def execAcquire (p : Port) (c : CmdFields) (s : State) : Host.Outcome State Fault Refusal :=
  hostAccess p (.acquire p c) s (takeAcquire p c)

/-! ### cancel -/

/-- What the lock engine decides (R35). The port's wait entry is withdrawn and the grant pass runs. -/
def decideCancel (p : Port) (c : CmdFields) (s : State) : Decision :=
  s.onRegion p c.region fun g =>
    if g.waitsFor p then
      ((s.setSlot c.region (some (g.withdraw p))).grantPass c.region, .withdrawn, 0#32)
    else refuse s .notQueued

/-- The command taken by the port interface (R175). -/
def takeCancel (p : Port) (c : CmdFields) (s : State) : State :=
  launch p (c.word 0x11#8) (decideCancel p c) s

/-- A host's write of this command word (R35). -/
def execCancel (p : Port) (c : CmdFields) (s : State) : Host.Outcome State Fault Refusal :=
  hostAccess p (.cancel p c) s (takeCancel p c)

/-! ### release -/

/-- What the lock engine decides (R37). The port's hold ends as a normal release; the pass follows a SHARED one (R38). -/
def decideRelease (p : Port) (c : CmdFields) (s : State) : Decision :=
  s.onRegion p c.region fun g =>
    if (g.holders.get p).isSome then
      ((s.endHold c.region p false).grantPass c.region, .done, 0#32)
    else refuse s .notHeld

/-- The command taken by the port interface (R175). -/
def takeRelease (p : Port) (c : CmdFields) (s : State) : State :=
  launch p (c.word 0x12#8) (decideRelease p c) s

/-- A host's write of this command word (R37). -/
def execRelease (p : Port) (c : CmdFields) (s : State) : Host.Outcome State Fault Refusal :=
  hostAccess p (.release p c) s (takeRelease p c)

/-! ### renew -/

/-- What the lock engine decides (R51). The hold's remaining count becomes the lease length and its warned flag is cleared. -/
def decideRenew (p : Port) (c : CmdFields) (s : State) : Decision :=
  s.onRegion p c.region fun g =>
    match g.holders.get p with
    | none => refuse s .notHeld
    | some h =>
      if g.attrs.lease = 0#16 then refuse s .noLease
      else
        (s.setSlot c.region (some { g with
          holders := g.holders.set p (some { h with remaining := some g.attrs.lease, warned := false }) }),
          .done, 0#32)

/-- The command taken by the port interface (R175). -/
def takeRenew (p : Port) (c : CmdFields) (s : State) : State :=
  launch p (c.word 0x13#8) (decideRenew p c) s

/-- A host's write of this command word (R51). -/
def execRenew (p : Port) (c : CmdFields) (s : State) : Host.Outcome State Fault Refusal :=
  hostAccess p (.renew p c) s (takeRenew p c)

/-! ### makePrivate -/

/-- What the lock engine decides (R78, R79). The EXCLUSIVE hold becomes proprietorship of a PRIVATE region. -/
def decideMakePrivate (p : Port) (c : CmdFields) (s : State) : Decision :=
  s.onRegion p c.region fun g =>
    if !g.exclusiveBy p then refuse s .notHeld
    else if !g.attrs.mayPrivate then refuse s .notPermitted
    else if !g.queue.isEmpty then refuse s .busy
    else (s.setSlot c.region (some { g.dropHold p with state := .ownedBy p }), .done, 0#32)

/-- The command taken by the port interface (R175). -/
def takeMakePrivate (p : Port) (c : CmdFields) (s : State) : State :=
  launch p (c.word 0x18#8) (decideMakePrivate p c) s

/-- A host's write of this command word (R78, R79). -/
def execMakePrivate (p : Port) (c : CmdFields) (s : State) : Host.Outcome State Fault Refusal :=
  hostAccess p (.makePrivate p c) s (takeMakePrivate p c)

/-! ### relinquish -/

/-- What the lock engine decides (R85). The proprietor's region enters a RELINQUISH drain toward its wipe. -/
def decideRelinquish (p : Port) (c : CmdFields) (s : State) : Decision :=
  s.onRegion p c.region fun g =>
    if g.state.proprietor = some p then
      ((s.setSlot c.region (some { g with state := .draining ⟨.relinquish p, onlyPort p⟩ })).sendFence
        c.region p, .done, 0#32)
    else refuse s .notProprietor

/-- The command taken by the port interface (R175). -/
def takeRelinquish (p : Port) (c : CmdFields) (s : State) : State :=
  launch p (c.word 0x19#8) (decideRelinquish p c) s

/-- A host's write of this command word (R85). -/
def execRelinquish (p : Port) (c : CmdFields) (s : State) : Host.Outcome State Fault Refusal :=
  hostAccess p (.relinquish p c) s (takeRelinquish p c)

/-! ### digest -/

/-- What the lock engine decides (R101). A SHARED holder queues a DIGEST job with itself as requester. -/
def decideDigest (p : Port) (c : CmdFields) (s : State) : Decision :=
  s.onRegion p c.region fun g =>
    if (g.holders.get p).map Hold.mode ≠ some .shared then refuse s .notHeld
    else if g.job.isSome then refuse s .busy
    else (s.queueJob c.region .digest (some p), .done, 0#32)

/-- The command taken by the port interface (R175). -/
def takeDigest (p : Port) (c : CmdFields) (s : State) : State :=
  launch p (c.word 0x1C#8) (decideDigest p c) s

/-- A host's write of this command word (R101). -/
def execDigest (p : Port) (c : CmdFields) (s : State) : Host.Outcome State Fault Refusal :=
  hostAccess p (.digest p c) s (takeDigest p c)

/-! ### message -/

/-- What the lock engine decides (R154). A MESSAGE record with CARG0's payload joins the target's queue, or is refused. -/
def decideMessage (p : Port) (c : CmdFields) (s : State) : Decision :=
  s.whenAttached p <|
    if (s.port c.target).state = .detached then refuse s .noTarget
    else if Config.messageLimit ≤ (s.port c.target).notes.length then refuse s .targetFull
    else
      (s.updPort c.target fun i => { i with notes := i.notes ++ [.message p (s.port p).carg0] }, .done, 0#32)

/-- The command taken by the port interface (R175). -/
def takeMessage (p : Port) (c : CmdFields) (s : State) : State :=
  launch p (c.word 0x20#8) (decideMessage p c) s

/-- A host's write of this command word (R154). -/
def execMessage (p : Port) (c : CmdFields) (s : State) : Host.Outcome State Fault Refusal :=
  hostAccess p (.message p c) s (takeMessage p c)

end Sys2Proof.Machine
end

