-- ==== Sys2Proof/Machine/PortResets.lean ====
section
/-! DEFINITION. The port reset: discarding a port's write path (R135), restoring its interface (R165),
cutting its holds and waits (R44, R165). Shared by PORT_RESET, EVICT and the part resets. -/

namespace Sys2Proof.Machine

/-- How the access on the bus completes at a reset: a held read with FFFFFFFFh, a held write dropped
(R130, R135, R167), a CMD write the reset overtakes without a result (R166, R179). With none there, the
last completion stands. A port offers no CMD write while an access of it is held (R126). -/
def PortIface.busAtReset (i : PortIface) (overtaken : Option Instr) : BusResult :=
  match i.blocking with
  | some (.read _) => .read Config.resetFill
  | some (.write _) => .wrote
  | none => if i.held.isSome || overtaken.isSome then .wrote else i.bus

/-- The interface with the values a reset restores (R165, R175); an overtaken CMD write is not taken, so
CMD, CRES and CRESV read 0 (R166, R175, R179). The pin and an access that waits for service are not the
interface's to restore (R166). -/
def PortIface.restored (i : PortIface) (overtaken : Option Instr) : PortIface :=
  { PortIface.atReset with
    resetLow := i.resetLow, waiting := i.waiting, overtaken := overtaken, bus := i.busAtReset overtaken }

/-- The CMD write of port `p` among the commands `behind` a reset, if the port can have it on its bus when
the reset is taken (R126, R166, R179). -/
def State.cmdOnBus (s : State) (p : Port) (behind : List Instr) : Option Instr :=
  if s.served p && !(s.port p).busHeld then behind.find? fun c => c.writesCmd p else none

/-- Every fence mark of the port completes and is reported, in list order (R64). -/
def State.reportMarks (s : State) (p : Port) : State :=
  { s with completions := s.completions ++ (s.port p).fences.map fun m => (p, m.region) }

/-- The port reset of port `p`, its line apart: the interface's part, then the lock engine's, region by
region in ascending order (R165). -/
def State.resetPort (s : State) (p : Port) (overtaken : Option Instr) : State :=
  allRegions.foldl (fun t r => t.cutRegion p r)
    ((s.reportMarks p).updPort p fun i => i.restored overtaken)

end Sys2Proof.Machine
end

