-- ==== Sys2Proof/Machine/SupervisorCommands.lean ====
section
/-! DEFINITION. The supervisor's commands (1.4, 5.4, 10.5) and the operations they are made of. -/

namespace Sys2Proof.Machine

/-- Some page of the extent belongs to a defined region (R13). -/
def State.overlapped (s : State) (e : Extent) : Bool :=
  allRegions.any fun r => match s.slot r with
    | some g => g.extent.overlaps e
    | none => false

/-- The descriptor DEFINE fills (R14). -/
def freshRegion (e : Extent) (a : Attributes) : Region where
  state := .draining ⟨.define, .all true⟩
  extent := e
  attrs := a
  holders := .all none
  queue := []
  generation := 0#16
  digest := none
  taint := false
  job := none

/-- The region is FREE with no waiter and no job (R16, R17). -/
def Region.idle (g : Region) : Bool := g.state == .free && g.queue.isEmpty && g.job.isNone

/-- The right a holder of this mode loses (R88). -/
def Mode.right : Mode → RightHeld
  | .shared => .shared
  | .exclusive => .exclusive

/-- REVOKED with reason RECLAIM offered to port `q` if it holds the region (R88). -/
def State.revokeHolder (s : State) (r : RegionIx) (g : Region) (q : Port) : State :=
  match g.holders.get q with
  | none => s
  | some h => s.offer q (.revoked r h.mode.right .reclaim)

/-- The records of a RECLAIM: REVOKED to each holder, DROPPED to each waiter (R88). -/
def State.reclaimRecords (s : State) (r : RegionIx) (g : Region) : State :=
  g.queue.foldl (fun t e => t.offer e.port (.dropped r)) (allPorts.foldl (fun t q => t.revokeHolder r g q) s)

/-- The region emptied of holders and waiters and DRAINING with reason RECLAIM (R87). -/
def Region.reclaimed (g : Region) (requester : Port) (awaited : PerPort Bool) : Region :=
  { g with state := .draining ⟨.reclaim requester, awaited⟩, holders := .all none, queue := [] }

/-- RECLAIM of a FREE or SHARED region: nothing awaited, so the drain ends at once unless a job is
attached (R87, R89). -/
def State.reclaimIdle (s : State) (r : RegionIx) (g : Region) (p : Port) : State :=
  ((s.reclaimRecords r g).setSlot r (some (g.reclaimed p (.all false)))).decideDrain r

/-- The ports that hold the region (R20). -/
def Region.holderSet (g : Region) : PerPort Bool := .ofFun fun q => (g.holders.get q).isSome

/-- A fence request for region `r` sent to port `q` if the set holds it (R66). -/
def State.fenceIf (s : State) (r : RegionIx) (set : PerPort Bool) (q : Port) : State :=
  if set.get q then s.sendFence r q else s

/-- RECLAIM of an EXCLUSIVE region: the holder's fence is awaited (R87). -/
def State.reclaimHeld (s : State) (r : RegionIx) (g : Region) (p : Port) : State :=
  allPorts.foldl (fun t q => t.fenceIf r g.holderSet q)
    ((s.reclaimRecords r g).setSlot r (some (g.reclaimed p g.holderSet)))

/-- RECLAIM of a PRIVATE region: REVOKED to the proprietor, whose fence is awaited (R87, R88). -/
def State.reclaimPrivate (s : State) (r : RegionIx) (g : Region) (p owner : Port) : State :=
  (((s.offer owner (.revoked r .proprietor .reclaim)).setSlot r
    (some (g.reclaimed p (onlyPort owner)))).sendFence r owner)

/-- RECLAIM during a RELEASE or DEFINE drain: the drain is converted, its awaited set kept (R72). -/
def State.convertDrain (s : State) (r : RegionIx) (g : Region) (d : Drain) (p : Port) : State :=
  (s.reclaimRecords r g).setSlot r (some (g.reclaimed p d.awaited))

/-! ### define -/

/-- What the lock engine decides (R12 to R14). A region over open-store pages, DRAINING with reason DEFINE and fences to all four ports. -/
def decideDefine (p : Port) (c : CmdFields) (s : State) : Decision :=
  s.asSupervisor p <|
    let e := extentOf (s.port p).carg0
    if (s.slot c.region).isSome then refuse s .inUse
    else if e.bad then refuse s .badExtent
    else if s.overlapped e then refuse s .overlap
    else
      (allPorts.foldl (fun t q => t.sendFence c.region q)
        (s.setSlot c.region (some (freshRegion e (attributesOf (s.port p).carg1 (s.port p).carg2)))),
        .done, 0#32)

/-- The command taken by the port interface (R175). -/
def takeDefine (p : Port) (c : CmdFields) (s : State) : State :=
  launch p (c.word 0x40#8) (decideDefine p c) s

/-- A host's write of this command word (R12 to R14). -/
def execDefine (p : Port) (c : CmdFields) (s : State) : Host.Outcome State Fault Refusal :=
  hostAccess p (.define p c) s (takeDefine p c)

/-! ### modify -/

/-- What the lock engine decides (R16). The five attributes of a FREE and idle region are replaced. -/
def decideModify (p : Port) (c : CmdFields) (s : State) : Decision :=
  s.asSupervisor p <| match s.slot c.region with
    | none => refuse s .noRegion
    | some g =>
      if g.idle then
        (s.setSlot c.region (some { g with attrs := attributesOf (s.port p).carg1 (s.port p).carg2 }),
          .done, 0#32)
      else refuse s .busy

/-- The command taken by the port interface (R175). -/
def takeModify (p : Port) (c : CmdFields) (s : State) : State :=
  launch p (c.word 0x41#8) (decideModify p c) s

/-- A host's write of this command word (R16). -/
def execModify (p : Port) (c : CmdFields) (s : State) : Host.Outcome State Fault Refusal :=
  hostAccess p (.modify p c) s (takeModify p c)

/-! ### delete -/

/-- What the lock engine decides (R17). A FREE and idle region's slot returns to UNDEFINED. -/
def decideDelete (p : Port) (c : CmdFields) (s : State) : Decision :=
  s.asSupervisor p <| match s.slot c.region with
    | none => refuse s .noRegion
    | some g => if g.idle then (s.setSlot c.region none, .done, 0#32) else refuse s .busy

/-- The command taken by the port interface (R175). -/
def takeDelete (p : Port) (c : CmdFields) (s : State) : State :=
  launch p (c.word 0x42#8) (decideDelete p c) s

/-- A host's write of this command word (R17). -/
def execDelete (p : Port) (c : CmdFields) (s : State) : Host.Outcome State Fault Refusal :=
  hostAccess p (.delete p c) s (takeDelete p c)

/-! ### reclaim -/

/-- What the lock engine decides (R87). Every right on the region is revoked and it goes through a RECLAIM drain to a wipe. -/
def decideReclaim (p : Port) (c : CmdFields) (s : State) : Decision :=
  s.asSupervisor p <| match s.slot c.region with
    | none => refuse s .noRegion
    | some g => match g.state with
      | .free => (s.reclaimIdle c.region g p, .done, 0#32)
      | .shared => (s.reclaimIdle c.region g p, .done, 0#32)
      | .exclusive => (s.reclaimHeld c.region g p, .done, 0#32)
      | .ownedBy q => (s.reclaimPrivate c.region g p q, .done, 0#32)
      | .draining d => match d.reason with
        | .release _ => (s.convertDrain c.region g d p, .done, 0#32)
        | .define => (s.convertDrain c.region g d p, .done, 0#32)
        | .relinquish _ => refuse s .pending
        | .reclaim _ => refuse s .pending
      | .wiping => refuse s .busy

/-- The command taken by the port interface (R175). -/
def takeReclaim (p : Port) (c : CmdFields) (s : State) : State :=
  launch p (c.word 0x43#8) (decideReclaim p c) s

/-- A host's write of this command word (R87). -/
def execReclaim (p : Port) (c : CmdFields) (s : State) : Host.Outcome State Fault Refusal :=
  hostAccess p (.reclaim p c) s (takeReclaim p c)

/-! ### evict -/

/-- What the lock engine decides (R168). A port reset of another port, over in the command's own event. It
overtakes no CMD write: one of the target's is taken before it or after it (R169). -/
def decideEvict (p : Port) (c : CmdFields) (s : State) : Decision :=
  s.asSupervisor p <|
    if c.target = p then refuse s .notPermitted
    else (s.resetPort c.target none, .done, 0#32)

/-- The command taken by the port interface (R175). -/
def takeEvict (p : Port) (c : CmdFields) (s : State) : State :=
  launch p (c.word 0x44#8) (decideEvict p c) s

/-- A host's write of this command word (R168). -/
def execEvict (p : Port) (c : CmdFields) (s : State) : Host.Outcome State Fault Refusal :=
  hostAccess p (.evict p c) s (takeEvict p c)

end Sys2Proof.Machine
end

