-- ==== Sys2Proof/Machine/ViewAccess.lean ====
section
/-! DEFINITION. View accesses: decoding, the access check at acceptance, the fault record, and the three
ways into the write path (chapters 7 to 9). -/

namespace Sys2Proof.Machine

/-- The count of a filled fault record, stopping at 255 (R157). -/
def FaultRecord.again (f : FaultRecord) : FaultRecord :=
  { f with count := if f.count = 0xFF#8 then f.count else f.count + 1#8 }

/-- A failed view access fills an empty fault record and offers a FAULT record, or counts in a filled
one (R156, R157). -/
def State.recordFault (s : State) (p : Port) (k : FaultKind) (dir : Direction) (viewAddr : Half)
    (storeAddr : Option (BitVec 18)) : State :=
  match (s.port p).fault with
  | some f => s.updPort p fun i => { i with fault := some f.again }
  | none =>
    (s.updPort p fun i =>
      { i with fault := some ⟨k, dir, viewAddr, storeAddr, s.faultRegion storeAddr, 1#8⟩ }).offer p (.fault k)

/-- A failed read completes with the port's fill word (R121). -/
def State.failRead (s : State) (p : Port) (k : FaultKind) (a : BusAddr) (storeAddr : Option (BitVec 18)) :
    State :=
  (s.recordFault p k .read (viewByte a) storeAddr).complete p (.read (s.port p).fill)

/-- A failed write is dropped and completes (R117, R123). -/
def State.failWrite (s : State) (p : Port) (k : FaultKind) (viewAddr : Half)
    (storeAddr : Option (BitVec 18)) : State :=
  (s.recordFault p k .write viewAddr storeAddr).complete p .wrote

/-- A hold with its wrote flag set (R21). -/
def Hold.noted (h : Hold) : Hold := { h with wrote := true }

/-- A write accepted under port `p`'s EXCLUSIVE hold sets the hold's wrote flag; one accepted in open
store or by a proprietor sets none (R21). -/
def Region.noteWrite (g : Region) (p : Port) : Region :=
  match g.state with
  | .ownedBy _ => g
  | _ => if g.exclusiveBy p then { g with holders := g.holders.set p ((g.holders.get p).map Hold.noted) } else g

/-- The wrote flag at the acceptance of a write to word `w` (R21). -/
def State.noteWrite (s : State) (p : Port) (w : StoreAddr) : State :=
  match s.regionOf w with
  | none => s
  | some r => s.updRegion r fun g => g.noteWrite p

/-- The acceptance of a posted write: checked, then joined to the queue's tail or dropped (R128). -/
def State.acceptPosted (s : State) (p : Port) (viewAddr : Half) (w : StoreWrite) : State :=
  match s.check p .write w.addr with
  | some k => s.failWrite p k viewAddr (some (faultAddr w.addr))
  | none => ((s.noteWrite p w.addr).updPort p fun i => { i with posted := i.posted ++ [w] }).complete p .wrote

/-- The acceptance of a non-posted write: checked, then the blocking access or dropped (R123, R130). -/
def State.acceptBlocking (s : State) (p : Port) (viewAddr : Half) (w : StoreWrite) : State :=
  match s.check p .write w.addr with
  | some k => s.failWrite p k viewAddr (some (faultAddr w.addr))
  | none => (s.noteWrite p w.addr).updPort p fun i => { i with blocking := some (.write w) }

/-- A posted write offered: accepted at once, or held for a place in a full queue (R123, R129). -/
def State.offerPosted (s : State) (p : Port) (viewAddr : Half) (w : StoreWrite) : State :=
  if (s.port p).posted.length < Config.postedCapacity then s.acceptPosted p viewAddr w
  else s.updPort p fun i => { i with held := some ⟨viewAddr, w⟩ }

/-- A posted write held for a place is checked and accepted or dropped once a place is free; it waits
while the queue is full (R129). -/
def State.acceptHeld (s : State) (p : Port) : State :=
  match (s.port p).held with
  | none => s
  | some h =>
    if (s.port p).posted.length < Config.postedCapacity then
      (s.updPort p fun i => { i with held := none }).acceptPosted p h.viewAddr h.write
    else s

/-! ### VIEW_READ -/

/-- A view read: decoded, checked, and the blocking access if it passes (R117, R123). -/
def takeViewRead (p : Port) (a : BusAddr) (s : State) : State :=
  match s.decodeView p .read a with
  | .fails k at_ => s.failRead p k a at_
  | .passes w _ => match s.check p .read w with
    | some k => s.failRead p k a (some (faultAddr w))
    | none => s.updPort p fun i => { i with blocking := some (.read w) }

/-- A host read in the view (R123). -/
def execViewRead (p : Port) (a : BusAddr) (s : State) : Host.Outcome State Fault Refusal :=
  hostAccess p (.viewRead p a) s (takeViewRead p a)

/-! ### VIEW_WRITE -/

/-- A view write: with no byte enable it completes at once and is nothing else (R108); otherwise it is
decoded and goes the way its entry's posted flag says (R118). -/
def takeViewWrite (p : Port) (a : BusAddr) (be : Enables) (v : Word) (s : State) : State :=
  if be = 0#4 then s.complete p .wrote
  else match s.decodeView p .write a with
    | .fails k at_ => s.failWrite p k (viewByte a) at_
    | .passes w true => s.offerPosted p (viewByte a) ⟨w, v, be⟩
    | .passes w false => s.acceptBlocking p (viewByte a) ⟨w, v, be⟩

/-- A host write in the view (R123). -/
def execViewWrite (p : Port) (a : BusAddr) (be : Enables) (v : Word) (s : State) :
    Host.Outcome State Fault Refusal :=
  hostAccess p (.viewWrite p a be v) s (takeViewWrite p a be v)

/-! ### POSTED_WRITE_ACCEPT -/

/-- The held write's turn, where a landing has left a place and it has not been taken (R129, log entry 4). -/
def execPostedWriteAccept (p : Port) (s : State) : Host.Outcome State Fault Refusal := .next (s.acceptHeld p)

end Sys2Proof.Machine
end

