-- ==== Sys2Proof/Machine/StoreSlots.lean ====
section
/-! DEFINITION. Store slots granted to a port: landings and the blocking read (R133), and the fence list
they count down (R62, R63). -/

namespace Sys2Proof.Machine

/-- The state after the store slot `k` performs, if the arbiter gives the next slot to client `c`;
otherwise the slot is not this client's and nothing happens (R139, log entry 3). -/
def State.inSlot (s : State) (c : Client) (k : State → State) : State :=
  match s.grantSlot c with
  | none => s
  | some t => k t

/-- The write lands (R1). -/
def State.landWrite (s : State) (w : StoreWrite) : State :=
  { s with store := s.store.writeWord w.addr w.be w.data }

/-- The mark one landing later (R63). -/
def FenceMark.less (m : FenceMark) : FenceMark := { m with count := m.count - 1 }

/-- The landing completes the mark (R63). -/
def FenceMark.last (m : FenceMark) : Bool := m.count == 1

/-- A landing counted by every mark of the port; the marks that reach 0 complete and are reported in the
order of the list (R63). -/
def State.countLanding (s : State) (p : Port) : State :=
  let marks := (s.port p).fences
  { s.updPort p fun i => { i with fences := (marks.filter fun m => !m.last).map FenceMark.less } with
    completions := s.completions ++ (marks.filter FenceMark.last).map fun m => (p, m.region) }

/-! ### POSTED_WRITE_LANDING -/

/-- The head of the posted queue lands; then a held write takes the place (R133, R129). -/
def State.landPosted (p : Port) (s : State) : State :=
  match (s.port p).posted with
  | [] => s
  | w :: rest =>
    (((s.landWrite w).updPort p fun i => { i with posted := rest }).countLanding p).acceptHeld p

/-- A slot granted to port `p` with its posted queue not empty (R133). -/
def execPostedWriteLanding (p : Port) (s : State) : Host.Outcome State Fault Refusal :=
  .next (if (s.port p).posted.isEmpty then s else s.inSlot (.port p) (State.landPosted p))

/-! ### BLOCKING_WRITE_LANDING -/

/-- The blocking write lands and its bus write completes (R133). -/
def State.landBlocking (p : Port) (w : StoreWrite) (s : State) : State :=
  ((s.landWrite w).updPort p fun i => { i with blocking := none, bus := .wrote }).countLanding p

/-- A slot granted to port `p` with an empty posted queue and a blocking write (R130, R133). -/
def execBlockingWriteLanding (p : Port) (s : State) : Host.Outcome State Fault Refusal :=
  .next <| if (s.port p).posted.isEmpty then
      match (s.port p).blocking with
      | some (.write w) => s.inSlot (.port p) (State.landBlocking p w)
      | some (.read _) => s
      | none => s
    else s

/-! ### BLOCKING_READ_SLOT -/

/-- The blocking read returns the store word as it stands at this slot (R1, R133). -/
def State.readBlocking (p : Port) (w : StoreAddr) (s : State) : State :=
  s.updPort p fun i => { i with blocking := none, bus := .read (s.store.readWord w) }

/-- A slot granted to port `p` with an empty posted queue and a blocking read (R130, R133). -/
def execBlockingReadSlot (p : Port) (s : State) : Host.Outcome State Fault Refusal :=
  .next <| if (s.port p).posted.isEmpty then
      match (s.port p).blocking with
      | some (.read w) => s.inSlot (.port p) (State.readBlocking p w)
      | some (.write _) => s
      | none => s
    else s

/-! ### FENCE_REQUEST -/

/-- The port's writes accepted and not yet landed (R62). -/
def PortIface.writesInPath (i : PortIface) : Nat :=
  i.posted.length + match i.blocking with
    | some (.write _) => 1
    | some (.read _) => 0
    | none => 0

/-- Port `p`'s interface takes a request for region `r`: completed at once, or a mark with the count of
its writes in flight (R62). -/
def State.takeFence (s : State) (p : Port) (r : RegionIx) : State :=
  if (s.port p).writesInPath = 0 then s.reportFence p r
  else s.updPort p fun i => { i with fences := i.fences ++ [⟨r, i.writesInPath⟩] }

/-- The port interface takes a request the lock engine has sent (R62); with none sent nothing happens. -/
def execFenceRequest (p : Port) (r : RegionIx) (s : State) : Host.Outcome State Fault Refusal :=
  .next <| if s.fenceRequests.contains (p, r) then
      { s with fenceRequests := s.fenceRequests.erase (p, r) }.takeFence p r
    else s

/-! ### FENCE_COMPLETION -/

/-- Port `p` leaves the awaited set of a draining region that awaits it; another region is as it was (R65). -/
def Region.fenceDone (g : Region) (p : Port) : Region :=
  match g.state with
  | .draining d => { g with state := .draining { d with awaited := d.awaited.set p false } }
  | _ => g

/-- Region `r` drains and awaits port `p` (R65). -/
def State.awaits (s : State) (r : RegionIx) (p : Port) : Bool :=
  match s.slot r with
  | none => false
  | some g => match g.state with
    | .draining d => d.awaited.get p
    | _ => false

/-- The lock engine takes a reported completion; only an awaited one has an effect (R65, R67). -/
def execFenceCompletion (p : Port) (r : RegionIx) (s : State) : Host.Outcome State Fault Refusal :=
  .next <| if s.completions.contains (p, r) then
      let t := { s with completions := s.completions.erase (p, r) }
      if t.awaits r p then (t.updRegion r fun g => g.fenceDone p).decideDrain r else t
    else s

/-! ### DRAIN_END -/

/-- The end of a drain whose conditions are met; while one is unmet the region stays DRAINING (R67). -/
def execDrainEnd (r : RegionIx) (s : State) : Host.Outcome State Fault Refusal := .next (s.decideDrain r)

end Sys2Proof.Machine
end

