-- ==== Sys2Proof/Machine/SweepEngine.lean ====
section
/-! DEFINITION. The sweep engine (chapter 6): job start, the words of a wipe, a digest and the start-up
sweep, and the lock engine's taking of its completions. -/

namespace Sys2Proof.Machine

/-! ### The CRC (R99) -/

/-- One data bit into the register. -/
def crcBit (reg : Word) (b : Bool) : Word :=
  let shifted := reg >>> 1
  if reg.getLsbD 0 != b then shifted ^^^ 0xEDB88320#32 else shifted

/-- A word's 32 bits: lane 0 first, each byte least significant bit first, so bits 0 to 31 in order. -/
def crcWord (reg v : Word) : Word := (List.range 32).foldl (fun c i => crcBit c (v.getLsbD i)) reg

/-- The value reported: every bit inverted. -/
def crcValue (reg : Word) : Word := ~~~reg

/-! ### Words of an extent -/

/-- The words of an extent (R95). -/
def Extent.words (e : Extent) : Nat := e.count * Config.wordsPerPage

/-- The `n`-th word of an extent in ascending address (R95). -/
def Extent.wordAt (e : Extent) (n : Nat) : Nat := e.base * Config.wordsPerPage + n

/-- The `n`-th word of a list of extents, extent by extent (R106). -/
def wipeWordAt : List Extent → Nat → Option Nat
  | [], _ => none
  | e :: es, n => if n < e.words then some (e.wordAt n) else wipeWordAt es (n - e.words)

/-- The word becomes zero, all four lanes (R96, R105). -/
def State.zeroWord (s : State) (n : Nat) : State := s.landWrite ⟨BitVec.ofNat 15 n, 0#32, 15#4⟩

/-! ### JOB_START -/

/-- The start of a job: an IDLE engine takes the head of its queue, and the lock engine takes the oldest start
reported, so that the region's job field becomes running (R95). In a run the engine has taken the head in the
event that queued it (R94), and this takes its start (12.6, log entry 13). -/
def execJobStart (s : State) : Host.Outcome State Fault Refusal := .next s.startHead.takeStart

/-! ### WIPE_WORD and DIGEST_WORD -/

/-- The report of a finished job; a WIPE carries no value (R95). -/
def Progress.report (p : Progress) : Report :=
  match p.job.kind with
  | .wipe => .wipe p.job.region
  | .digest => .digest p.job.region (crcValue p.crc)

/-- The job one word further: after the extent's last word the completion is reported and the next head
starts at once, or the engine is IDLE (R94, R95). -/
def State.advanceJob (s : State) (p : Progress) : State :=
  if p.done + 1 < p.extent.words then { s with current := some { p with done := p.done + 1 } }
  else { s with current := none, reports := s.reports ++ [p.report] }.startNext

/-- A slot in which a WIPE writes its next word (R96). -/
def State.wipeStep (p : Progress) (s : State) : State :=
  (s.zeroWord (p.extent.wordAt p.done)).advanceJob p

/-- A slot granted to the engine while a WIPE is in progress (R95, R96). -/
def execWipeWord (s : State) : Host.Outcome State Fault Refusal :=
  .next <| match s.current with
    | none => s
    | some p => match p.job.kind with
      | .wipe => s.inSlot .engine (State.wipeStep p)
      | .digest => s

/-- A slot in which a DIGEST reads its next word into the CRC; it writes nothing (R98). -/
def State.digestStep (p : Progress) (s : State) : State :=
  s.advanceJob { p with crc := crcWord p.crc (s.store.readWord (BitVec.ofNat 15 (p.extent.wordAt p.done))) }

/-- A slot granted to the engine while a DIGEST is in progress (R95, R98). -/
def execDigestWord (s : State) : Host.Outcome State Fault Refusal :=
  .next <| match s.current with
    | none => s
    | some p => match p.job.kind with
      | .digest => s.inSlot .engine (State.digestStep p)
      | .wipe => s

/-! ### SWEEP_WORD and STARTUP_SWEEP_END -/

/-- The start-up sweep ends once its last word is written: the part is READY (R104 to R106). -/
def State.endSweep (s : State) : State :=
  if s.part = .starting && !s.rstLow && (wipeWordAt s.wipeList s.swept).isNone then
    { s with part := .ready, wipeList := [], swept := 0 }
  else s

/-- A slot in which the sweep writes its next word; the last one makes the part READY (R105, R173). -/
def State.sweepStep (n : Nat) (s : State) : State :=
  { s.zeroWord n with swept := s.swept + 1 }.endSweep

/-- A slot granted to the engine while it is SWEEPING with RST_n high (R105, R106). -/
def execSweepWord (s : State) : Host.Outcome State Fault Refusal :=
  .next <| if s.part = .starting && !s.rstLow then
      match wipeWordAt s.wipeList s.swept with
      | none => s
      | some n => s.inSlot .engine (State.sweepStep n)
    else s

/-- The change to READY, where the sweep's last word is written and it has not been taken (R104, log entry 4). -/
def execStartupSweepEnd (s : State) : Host.Outcome State Fault Refusal := .next s.endSweep

/-! ### WIPE_COMPLETION and DIGEST_COMPLETION -/

/-- A record offered to a job's requester, if it has one (R90, R102). -/
def State.offerTo (s : State) (q : Option Port) (x : Record) : State :=
  match q with
  | none => s
  | some p => s.offer p x

/-- The region after a wipe's completion, steps 1 to 4 (R97). -/
def Region.wiped (g : Region) : Region :=
  { g with generation := g.generation + 1#16, digest := none, taint := false, job := none, state := .free }

/-- The completion of a WIPE on region `r` (R97). -/
def State.finishWipe (s : State) (r : RegionIx) (g : Region) (q : Option Port) : State :=
  ((s.setSlot r (some g.wiped)).offerTo q (.wipeDone r (g.generation + 1#16))).grantPass r

/-- The completion on region `r` may be taken: the start of the same job has been (R95). -/
def State.startTaken (s : State) (r : RegionIx) : Bool := !s.starts.contains r

/-- The lock engine takes the engine's oldest completion, a WIPE's on region `r` (R95, R97). -/
def execWipeCompletion (r : RegionIx) (s : State) : Host.Outcome State Fault Refusal :=
  .next <| match s.reports with
    | .wipe r' :: rest =>
      if r' = r ∧ s.startTaken r = true then
        let t := { s with reports := rest }
        match s.slot r with
        | some g => match g.job with
          | some ⟨.wipe, _, q⟩ => t.finishWipe r g q
          | _ => t
        | none => t
      else s
    | _ => s

/-- The region after a digest's completion, steps 1 and 2 (R100). -/
def Region.digested (g : Region) (v : Word) : Region :=
  { g with digest := some ⟨v, g.generation⟩, job := none }

/-- Under reason RECLAIM the lock engine then decides the end of the drain (R74, R100). -/
def State.afterDigest (s : State) (r : RegionIx) (g : Region) : State :=
  match g.state with
  | .draining ⟨.reclaim _, _⟩ => s.decideDrain r
  | _ => s

/-- The completion of a DIGEST with value `v` on region `r` (R100). -/
def State.finishDigest (s : State) (r : RegionIx) (g : Region) (q : Option Port) (v : Word) : State :=
  (((s.setSlot r (some (g.digested v))).offerTo q (.digestDone r g.generation v)).grantPass r).afterDigest r g

/-- The lock engine takes the engine's oldest completion, a DIGEST's on region `r` (R95, R100). -/
def execDigestCompletion (r : RegionIx) (s : State) : Host.Outcome State Fault Refusal :=
  .next <| match s.reports with
    | .digest r' v :: rest =>
      if r' = r ∧ s.startTaken r = true then
        let t := { s with reports := rest }
        match s.slot r with
        | some g => match g.job with
          | some ⟨.digest, _, q⟩ => t.finishDigest r g q v
          | _ => t
        | none => t
      else s
    | _ => s

end Sys2Proof.Machine
end

