-- ==== Sys2Proof/Machine/WindowWrites.lean ====
section
/-! DEFINITION. The accesses of the register window that launch no defined command (chapter 11): each is
what the interface does, its bus completion, and the host's access. They are taken in every part state
and port state (R160, R174). -/

namespace Sys2Proof.Machine

/-- A window write's effect on the port's own interface, with the bus write's completion (R174). -/
def windowEffect (p : Port) (f : PortIface → PortIface) (s : State) : State :=
  s.updPort p fun i => { f i with bus := .wrote }

/-! ### BAD_COMMAND -/

/-- The interface answers BAD_COMMAND itself; only CMD, CRES and CRESV change (R175). -/
def takeBadCommand (p : Port) (w : Word) (s : State) : State :=
  windowEffect p (fun i => { i with cmd := w, cres := Result.badCommand.code, cresv := 0#32 }) s

/-- A CMD write with a code that is none of 11.4's (R175). -/
def execBadCommand (p : Port) (w : Word) (s : State) : Host.Outcome State Fault Refusal :=
  hostAccess p (.badCommand p w) s (takeBadCommand p w)

/-! ### NPOP -/

/-- The queue after a POP, or pop-empty on an empty one (R149, R150). -/
def PortIface.pop (i : PortIface) : PortIface :=
  match i.notes with
  | [] => { i with popEmpty := true }
  | _ :: rest => { i with notes := rest }

/-- A POP; the data is ignored (R149). -/
def takeNpop (p : Port) (_v : Word) (s : State) : State := windowEffect p PortIface.pop s

/-- A write to NPOP (R149). -/
def execNpop (p : Port) (v : Word) (s : State) : Host.Outcome State Fault Refusal :=
  hostAccess p (.npop p v) s (takeNpop p v)

/-! ### FCLR -/

/-- The fault record is emptied; the data is ignored (R158). -/
def takeFclr (p : Port) (_v : Word) (s : State) : State :=
  windowEffect p (fun i => { i with fault := none }) s

/-- A write to FCLR (R158). -/
def execFclr (p : Port) (v : Word) (s : State) : Host.Outcome State Fault Refusal :=
  hostAccess p (.fclr p v) s (takeFclr p v)

/-! ### NMASK -/

/-- The eight enables are replaced from bits 8:1 (R152, 11.6). -/
def takeNmask (p : Port) (v : Word) (s : State) : State :=
  windowEffect p (fun i => { i with kindMask := v.extractLsb' 1 8 }) s

/-- A write to NMASK (R152). -/
def execNmask (p : Port) (v : Word) (s : State) : Host.Outcome State Fault Refusal :=
  hostAccess p (.nmask p v) s (takeNmask p v)

/-! ### LWARN -/

/-- The warning threshold is replaced from bits 15:0 (R48, 11.1). -/
def takeLwarn (p : Port) (v : Word) (s : State) : State :=
  windowEffect p (fun i => { i with lwarn := v.extractLsb' 0 16 }) s

/-- A write to LWARN (R48). -/
def execLwarn (p : Port) (v : Word) (s : State) : Host.Outcome State Fault Refusal :=
  hostAccess p (.lwarn p v) s (takeLwarn p v)

/-! ### FILL -/

/-- The fill word is replaced (R120). -/
def takeFill (p : Port) (v : Word) (s : State) : State :=
  windowEffect p (fun i => { i with fill := v }) s

/-- A write to FILL (R120). -/
def execFill (p : Port) (v : Word) (s : State) : Host.Outcome State Fault Refusal :=
  hostAccess p (.fill p v) s (takeFill p v)

/-! ### SARB -/

/-- From the supervisor: five new initial priorities, every effective one set to its own. From another
port: ignored (R140). -/
def takeSarb (p : Port) (v : Word) (s : State) : State :=
  let s := s.complete p .wrote
  if s.supervisor = some p then
    { s with initialPrio := prioritiesOf v, effectivePrio := prioritiesOf v }
  else s

/-- A write to SARB (R140). -/
def execSarb (p : Port) (v : Word) (s : State) : Host.Outcome State Fault Refusal :=
  hostAccess p (.sarb p v) s (takeSarb p v)

/-! ### APERTURE_PLACEMENT_WRITE -/

/-- A placement write: taken by a disabled entry, refused by an enabled one (R111). -/
def PortIface.placeAperture (i : PortIface) (n : ApertureIx) (f : Placement) (v : Word) : PortIface :=
  if (i.aperture n).enabled then { i with apertureRefused := true }
  else i.setAperture n ((i.aperture n).place f v)

/-- A write to VIEW, SIZE or STORE of entry `n` (R111). -/
def takeAperturePlacementWrite (p : Port) (n : ApertureIx) (f : Placement) (v : Word) (s : State) : State :=
  windowEffect p (fun i => i.placeAperture n f v) s

/-- A write to VIEW, SIZE or STORE of entry `n` (R111). -/
def execAperturePlacementWrite (p : Port) (n : ApertureIx) (f : Placement) (v : Word) (s : State) :
    Host.Outcome State Fault Refusal :=
  hostAccess p (.aperturePlacementWrite p n f v) s (takeAperturePlacementWrite p n f v)

/-! ### ATTR_WRITE -/

/-- A write to ATTR, by the entry's state and the enabled flag written (R112, R113). -/
def PortIface.writeAttr (i : PortIface) (n : ApertureIx) (v : Word) : PortIface :=
  let a := i.aperture n
  match a.enabled, v.getLsbD 0 with
  | false, false => i.setAperture n (a.withFlags v)
  | false, true =>
    if a.placementBad then { i with apertureRefused := true }
    else i.setAperture n { a.withFlags v with enabled := true }
  | true, false => i.setAperture n { a.withFlags v with enabled := false }
  | true, true => if a.sameFlags v then i else { i with apertureRefused := true }

/-- A write to ATTR of entry `n` (R112). -/
def takeAttrWrite (p : Port) (n : ApertureIx) (v : Word) (s : State) : State :=
  windowEffect p (fun i => i.writeAttr n v) s

/-- A write to ATTR of entry `n` (R112). -/
def execAttrWrite (p : Port) (n : ApertureIx) (v : Word) (s : State) : Host.Outcome State Fault Refusal :=
  hostAccess p (.attrWrite p n v) s (takeAttrWrite p n v)

/-! ### PSTAT_READ -/

/-- The read returns PSTAT as it stands and clears pop-empty and aperture-refused (R176). -/
def takePstatRead (p : Port) (s : State) : State :=
  s.updPort p fun i => { i with bus := .read (s.pstat p), popEmpty := false, apertureRefused := false }

/-- A read of PSTAT (R176). -/
def execPstatRead (p : Port) (s : State) : Host.Outcome State Fault Refusal :=
  hostAccess p (.pstatRead p) s (takePstatRead p)

/-! ### WINDOW_WRITE -/

/-- The argument word a full write replaces; every other access of this row is ignored (R174, R175). -/
def PortIface.writeWindow (i : PortIface) (off : BitVec 8) (be : Enables) (v : Word) : PortIface :=
  if be ≠ 15#4 then i
  else if off = 0x02#8 then { i with carg0 := v }
  else if off = 0x03#8 then { i with carg1 := v }
  else if off = 0x04#8 then { i with carg2 := v }
  else i

/-- A window write that no other row is (R174). -/
def takeWindowWrite (p : Port) (off : BitVec 8) (be : Enables) (v : Word) (s : State) : State :=
  windowEffect p (fun i => i.writeWindow off be v) s

/-- A window write that no other row is (R174). -/
def execWindowWrite (p : Port) (off : BitVec 8) (be : Enables) (v : Word) (s : State) :
    Host.Outcome State Fault Refusal :=
  hostAccess p (.windowWrite p off be v) s (takeWindowWrite p off be v)

end Sys2Proof.Machine
end

