-- ==== Sys2Proof/Machine/Resets.lean ====
section
/-! DEFINITION. The reset lines and power-on (10.4, 10.6, 10.7), and the return of a port's bus to service
with the access that waited for it (R166, R171). -/

namespace Sys2Proof.Machine

/-- A host's access taken by its port interface; the events of the device are no host's access. -/
def takeAccess (c : Instr) (s : State) : State :=
  match c with
  | .attach p c => takeAttach p c s
  | .detach p c => takeDetach p c s
  | .acquire p c => takeAcquire p c s
  | .cancel p c => takeCancel p c s
  | .release p c => takeRelease p c s
  | .renew p c => takeRenew p c s
  | .makePrivate p c => takeMakePrivate p c s
  | .relinquish p c => takeRelinquish p c s
  | .digest p c => takeDigest p c s
  | .message p c => takeMessage p c s
  | .define p c => takeDefine p c s
  | .modify p c => takeModify p c s
  | .delete p c => takeDelete p c s
  | .reclaim p c => takeReclaim p c s
  | .evict p c => takeEvict p c s
  | .badCommand p w => takeBadCommand p w s
  | .npop p v => takeNpop p v s
  | .fclr p v => takeFclr p v s
  | .nmask p v => takeNmask p v s
  | .lwarn p v => takeLwarn p v s
  | .fill p v => takeFill p v s
  | .sarb p v => takeSarb p v s
  | .aperturePlacementWrite p n f v => takeAperturePlacementWrite p n f v s
  | .attrWrite p n v => takeAttrWrite p n v s
  | .pstatRead p => takePstatRead p s
  | .windowWrite p off be v => takeWindowWrite p off be v s
  | .viewRead p a => takeViewRead p a s
  | .viewWrite p a be v => takeViewWrite p a be v s
  | .postedWriteAccept _ => s
  | .postedWriteLanding _ => s
  | .blockingWriteLanding _ => s
  | .blockingReadSlot _ => s
  | .wipeWord => s
  | .digestWord => s
  | .sweepWord => s
  | .startupSweepEnd => s
  | .fenceRequest _ _ => s
  | .fenceCompletion _ _ => s
  | .drainEnd _ => s
  | .leaseTick => s
  | .leaseExpiry _ => s
  | .jobStart => s
  | .wipeCompletion _ => s
  | .digestCompletion _ => s
  | .portReset _ => s
  | .portResetRelease _ => s
  | .warmReset => s
  | .resetRelease _ => s
  | .powerOn => s

/-- Port `p`'s bus is served again: an access begun meanwhile is taken as one offered now (R166). -/
def State.resume (s : State) (p : Port) : State :=
  if s.served p then
    match (s.port p).waiting with
    | none => s
    | some c => takeAccess c (s.updPort p fun i => { i with waiting := none })
  else s

/-- The level of PnRST_n. -/
def State.setLine (s : State) (p : Port) (low : Bool) : State := s.updPort p fun i => { i with resetLow := low }

/-! ### PORT_RESET -/

/-- PnRST_n goes low: the port reset as one event (R165). A CMD write of the port that stands right behind it
in the queue is on the bus as the line falls, and the reset is taken first (R166, log entry 22). While RST_n
is low it has no further effect than the line (R171); a line already low does not fall. -/
def execPortReset (p : Port) (s : State) : Host.Outcome State Fault Refusal :=
  .next <| if (s.port p).resetLow then s
    else if s.rstLow then s.setLine p true
    else (s.setLine p true).resetPort p (s.cmdOnBus p (s.pending.take 1))

/-! ### PORT_RESET_RELEASE -/

/-- PnRST_n goes high: the bus is served again unless RST_n is low; nothing else changes (R166, R171). -/
def execPortResetRelease (p : Port) (s : State) : Host.Outcome State Fault Refusal :=
  .next <| if (s.port p).resetLow then (s.setLine p false).resume p else s

/-! ### WARM_RESET -/

/-- The region's extent goes on the reset wipe list (R106). -/
def Region.mustWipe (g : Region) : Bool :=
  match g.state with
  | .ownedBy _ => true
  | .wiping => true
  | .draining d => match d.reason with
    | .relinquish _ => true
    | .reclaim _ => true
    | .release _ => false
    | .define => false
  | .free => false
  | .shared => false
  | .exclusive => false

/-- An extent put into a list ordered by ascending base page (R106). -/
def insertExtent (e : Extent) : List Extent → List Extent
  | [] => [e]
  | x :: xs => if e.base ≤ x.base then e :: x :: xs else x :: insertExtent e xs

/-- The reset wipe list the region table gives (R106). -/
def State.resetWipeList (s : State) : List Extent :=
  ((allRegions.filterMap s.slot).filter Region.mustWipe).foldr (fun g l => insertExtent g.extent l) []

/-- The CMD writes, of whatever ports, that stand right behind the command in the queue (R179). -/
def State.cmdsBehind (s : State) : List Instr := s.pending.takeWhile fun c => allPorts.any c.writesCmd

/-- The part with RST_n low and this wipe list: the table cleared, jobs, requests and reports discarded,
every interface restored, the arbiter at its defaults; `behind` are the commands it overtakes (R171, R64,
R106, R179). -/
def State.partReset (s : State) (behind : List Instr) (list : List Extent) : State :=
  { State.reset with
    pending := s.pending
    wipeList := list
    store := s.store
    ports := .ofFun fun p => (s.port p).restored (s.cmdOnBus p behind) }

/-- RST_n goes low; of the CMD writes right behind it in the queue each port's first is on its bus as the line
falls, and the reset is taken first (R179, log entry 22). While SWEEPING the list is kept (R107); a line
already low does not fall. -/
def execWarmReset (s : State) : Host.Outcome State Fault Refusal :=
  .next <| if s.rstLow then s
    else match s.part with
      | .starting => s.partReset s.cmdsBehind s.wipeList
      | .ready => s.partReset s.cmdsBehind s.resetWipeList

/-! ### RESET_RELEASE -/

/-- RST_n goes high: SUPSEL is sampled, the divider and the sweep start, an empty list ends the sweep at
once, and the ports are served again (R170, R171, R106). -/
def execResetRelease (supsel : BitVec 2) (s : State) : Host.Outcome State Fault Refusal :=
  .next <| if s.rstLow then
      allPorts.foldl State.resume
        { s with rstLow := false, supervisor := some (.ofBits supsel) }.endSweep
    else s

/-! ### POWER_ON -/

/-- Power-on: a warm reset whose wipe list is the whole store; nothing written before it is still in the
store (R172, R105, log entry 1). -/
def execPowerOn (s : State) : Host.Outcome State Fault Refusal :=
  .next { s.partReset [] [⟨0, Config.storePages⟩] with store := [] }

end Sys2Proof.Machine
end

