-- ==== Sys2Proof/Machine/Dispatch.lean ====
section
/-! DEFINITION. One arm per command: the direct call of its meaning. -/

namespace Sys2Proof.Machine

def exec (i : Instr) (s : State) : Host.Outcome State Fault Refusal :=
  match i with
  | .attach p c => Sys2Proof.Machine.execAttach p c s
  | .detach p c => Sys2Proof.Machine.execDetach p c s
  | .acquire p c => Sys2Proof.Machine.execAcquire p c s
  | .cancel p c => Sys2Proof.Machine.execCancel p c s
  | .release p c => Sys2Proof.Machine.execRelease p c s
  | .renew p c => Sys2Proof.Machine.execRenew p c s
  | .makePrivate p c => Sys2Proof.Machine.execMakePrivate p c s
  | .relinquish p c => Sys2Proof.Machine.execRelinquish p c s
  | .digest p c => Sys2Proof.Machine.execDigest p c s
  | .message p c => Sys2Proof.Machine.execMessage p c s
  | .define p c => Sys2Proof.Machine.execDefine p c s
  | .modify p c => Sys2Proof.Machine.execModify p c s
  | .delete p c => Sys2Proof.Machine.execDelete p c s
  | .reclaim p c => Sys2Proof.Machine.execReclaim p c s
  | .evict p c => Sys2Proof.Machine.execEvict p c s
  | .badCommand p w => Sys2Proof.Machine.execBadCommand p w s
  | .npop p v => Sys2Proof.Machine.execNpop p v s
  | .fclr p v => Sys2Proof.Machine.execFclr p v s
  | .nmask p v => Sys2Proof.Machine.execNmask p v s
  | .lwarn p v => Sys2Proof.Machine.execLwarn p v s
  | .fill p v => Sys2Proof.Machine.execFill p v s
  | .sarb p v => Sys2Proof.Machine.execSarb p v s
  | .aperturePlacementWrite p n f v => Sys2Proof.Machine.execAperturePlacementWrite p n f v s
  | .attrWrite p n v => Sys2Proof.Machine.execAttrWrite p n v s
  | .pstatRead p => Sys2Proof.Machine.execPstatRead p s
  | .windowWrite p off be v => Sys2Proof.Machine.execWindowWrite p off be v s
  | .viewRead p a => Sys2Proof.Machine.execViewRead p a s
  | .viewWrite p a be v => Sys2Proof.Machine.execViewWrite p a be v s
  | .postedWriteAccept p => Sys2Proof.Machine.execPostedWriteAccept p s
  | .postedWriteLanding p => Sys2Proof.Machine.execPostedWriteLanding p s
  | .blockingWriteLanding p => Sys2Proof.Machine.execBlockingWriteLanding p s
  | .blockingReadSlot p => Sys2Proof.Machine.execBlockingReadSlot p s
  | .wipeWord => Sys2Proof.Machine.execWipeWord s
  | .digestWord => Sys2Proof.Machine.execDigestWord s
  | .sweepWord => Sys2Proof.Machine.execSweepWord s
  | .startupSweepEnd => Sys2Proof.Machine.execStartupSweepEnd s
  | .fenceRequest p r => Sys2Proof.Machine.execFenceRequest p r s
  | .fenceCompletion p r => Sys2Proof.Machine.execFenceCompletion p r s
  | .drainEnd r => Sys2Proof.Machine.execDrainEnd r s
  | .leaseTick => Sys2Proof.Machine.execLeaseTick s
  | .leaseExpiry r => Sys2Proof.Machine.execLeaseExpiry r s
  | .jobStart => Sys2Proof.Machine.execJobStart s
  | .wipeCompletion r => Sys2Proof.Machine.execWipeCompletion r s
  | .digestCompletion r => Sys2Proof.Machine.execDigestCompletion r s
  | .portReset p => Sys2Proof.Machine.execPortReset p s
  | .portResetRelease p => Sys2Proof.Machine.execPortResetRelease p s
  | .warmReset => Sys2Proof.Machine.execWarmReset s
  | .resetRelease supsel => Sys2Proof.Machine.execResetRelease supsel s
  | .powerOn => Sys2Proof.Machine.execPowerOn s

end Sys2Proof.Machine
end

