-- ==== Sys2Proof/Machine/Step.lean ====
section
/-! DEFINITION. One step: the command at the front of the queue. -/

namespace Sys2Proof.Machine

/-- The command at the front is taken and run on the state with the queue's rest. With no command waiting
one period of REFCLK passes (log entry 7). -/
def step (s : State) : Host.Outcome State Fault Refusal :=
  match s.pending with
  | [] => .next s.refclkPeriod
  | c :: rest => exec c { s with pending := rest }

/-- The state with the command a word spells put at the front of its queue; the opcode table gives no row
any bits, so no word spells one and the state is unchanged (log entry 10). -/
def State.withFetchWord (s : State) (nbits w : Nat) : State :=
  match decodeTableWord nbits w with
  | none => s
  | some c => { s with pending := c :: s.pending }

end Sys2Proof.Machine
end

