-- ==== Sys2Proof/Safety.lean ====
section
/-! DEFINITION. The laws of the device: what every state of a run satisfies (R5, R8, R13, R23, R27, R61,
R104, R127, R136, R141, R160, R166, R170), and the terms in which claims say that a host's access is taken. -/

namespace Sys2Proof.Machine

/-! ### When an access is taken -/

/-- Port `p`'s interface takes an access offered now: its bus is served and holds no other (R126, R166, R171). -/
abbrev State.takes (s : State) (p : Port) : Prop := s.served p = true ∧ (s.port p).busHeld = false

/-- A command of port `p` passes the checks STARTING and NOT_ATTACHED (R12, R25). -/
abbrev State.commands (s : State) (p : Port) : Prop :=
  s.takes p ∧ s.part = .ready ∧ (s.port p).state = .attached

/-- A command of port `p` passes the three checks of R12. -/
abbrev State.supervises (s : State) (p : Port) : Prop := s.commands p ∧ s.supervisor = some p

/-! ### What a command leaves in its port's window -/

/-- The state in which the lock engine takes the command: CMD holds the word (R175). -/
def State.launched (s : State) (p : Port) (word : Word) : State := s.updPort p fun i => { i with cmd := word }

/-- The result in CRES and CRESV, the bus write of CMD complete (R175). -/
def State.answered (s : State) (p : Port) (code : BitVec 8) (value : Word) : State :=
  s.updPort p fun i => { i with cres := code, cresv := value, bus := .wrote }

/-- The whole trace of a command in its port's window: word, result, completion (R175). -/
def State.replied (s : State) (p : Port) (word : Word) (code : BitVec 8) (value : Word) : State :=
  s.updPort p fun i => { i with cmd := word, cres := code, cresv := value, bus := .wrote }

/-- Port `p`'s interface changed by `f` in a window write that completes on the bus at once (R132, R174). -/
def State.wrote (s : State) (p : Port) (f : PortIface → PortIface) : State :=
  s.updPort p fun i => { f i with bus := .wrote }

/-- The fault record after a view access that fails: filled by the first, counted up to 255 by later
ones (R157). -/
def FaultRecord.taken (old : Option FaultRecord) (first : FaultRecord) : FaultRecord :=
  match old with
  | none => first
  | some f => { f with count := if f.count = 255#8 then 255#8 else f.count + 1#8 }

/-- Port `p`'s interface after a failed view access `first` that completes on the bus as `b`: the fault
record taken, and the FAULT record offered with its first filling to an ATTACHED port (R121, R147, R157). -/
def PortIface.failed (i : PortIface) (first : FaultRecord) (b : BusResult) : PortIface :=
  { i with
    fault := some (FaultRecord.taken i.fault first)
    notes := if i.fault = none ∧ i.state = .attached then appendDevice i.notes (.fault first.kind) else i.notes
    bus := b }

/-- The values a reset gives a port interface (R165, R175), the pin and a waiting access apart; an access
held on the bus completes, a read with FFFFFFFFh (R130, R135, R167), and so does a CMD write that the reset
overtakes, without a result (R166, R179). -/
def PortIface.resetValues (i : PortIface) (overtaken : Option Instr) : PortIface where
  state := .detached
  resetLow := i.resetLow
  waiting := i.waiting
  overtaken := overtaken
  bus := match i.blocking, i.held, overtaken with
    | some (.read _), _, _ => .read 0xFFFFFFFF#32
    | some (.write _), _, _ => .wrote
    | none, some _, _ => .wrote
    | none, none, some _ => .wrote
    | none, none, none => i.bus
  cmd := 0#32
  carg0 := 0#32
  carg1 := 0#32
  carg2 := 0#32
  cres := 0#8
  cresv := 0#32
  notes := []
  kindMask := 0xFF#8
  lwarn := 0#16
  fill := 0xFFFFFFFF#32
  fault := none
  popEmpty := false
  apertureRefused := false
  apertures := Vector.replicate 8 ⟨false, 0#8, 0#4, 0#10, false, false, false⟩
  posted := []
  blocking := none
  held := none
  fences := []

/-! ### The region table -/

/-- Port `p` holds the region. -/
abbrev Region.holds (g : Region) (p : Port) : Prop := (g.holders.get p).isSome = true

/-- Port `p` waits on the region. -/
abbrev Region.waits (g : Region) (p : Port) : Prop := ∃ e ∈ g.queue, e.port = p

/-- What a region's state says of its holders (R5). -/
def Region.holdersLaw (g : Region) : Prop :=
  match g.state with
  | .free => ∀ p, ¬ g.holds p
  | .shared => (∃ p, g.holds p) ∧ ∀ p h, g.holders.get p = some h → h.mode = .shared
  | .exclusive => ∃ p h, g.holders.get p = some h ∧ h.mode = .exclusive ∧ ∀ q, g.holds q → q = p
  | .draining _ => ∀ p, ¬ g.holds p
  | .ownedBy _ => ∀ p, ¬ g.holds p
  | .wiping => ∀ p, ¬ g.holds p

/-- What a region's state says of its job field (R5). -/
def Region.jobLaw (g : Region) : Prop :=
  match g.state with
  | .free => ∀ j, g.job = some j → j.kind = .digest
  | .shared => ∀ j, g.job = some j → j.kind = .digest
  | .exclusive => g.job = none
  | .draining d => match d.reason with
    | .reclaim _ => ∀ j, g.job = some j → j.kind = .digest
    | .release _ => g.job = none
    | .define => g.job = none
    | .relinquish _ => g.job = none
  | .ownedBy _ => g.job = none
  | .wiping => ∃ j, g.job = some j ∧ j.kind = .wipe

/-- The wait queue names no port twice and none that holds the region, and is empty in PRIVATE (R5, R23). -/
def Region.queueLaw (g : Region) : Prop :=
  (g.queue.map WaitEntry.port).Nodup ∧ (∀ p, g.waits p → ¬ g.holds p) ∧
    ∀ p, g.state = .ownedBy p → g.queue = []

/-- A hold has a remaining count exactly when the region has a lease, and then one from 1 to the lease
length; a SHARED hold has no wrote flag (R20, R21, R46). -/
def Region.holdLaw (g : Region) : Prop :=
  ∀ p h, g.holders.get p = some h →
    (h.remaining.isSome = true ↔ g.attrs.lease ≠ 0#16) ∧
    (∀ n, h.remaining = some n → n ≠ 0#16 ∧ n ≤ g.attrs.lease) ∧ (h.mode = .shared → h.wrote = false)

/-- A region that drains since its DEFINE is at generation 0, with no digest and no taint (R14). -/
def Region.defineLaw (g : Region) : Prop :=
  ∀ awaited, g.state = .draining ⟨.define, awaited⟩ → g.generation = 0#16 ∧ g.digest = none ∧ g.taint = false

/-- The law of a region's fields (R5, R14, R20, R23). -/
def Region.lawful (g : Region) : Prop :=
  g.holdersLaw ∧ g.jobLaw ∧ g.queueLaw ∧ g.holdLaw ∧ g.defineLaw

/-- Every defined region is lawful, and no DETACHED port holds or waits anywhere (R5, R23, R160). -/
def State.regionsLaw (s : State) : Prop :=
  (∀ r g, s.slot r = some g → g.lawful) ∧
    ∀ r g p, s.slot r = some g → (s.port p).state = .detached → ¬ g.holds p ∧ ¬ g.waits p

/-- An extent lies in the store and is not empty (R4). -/
def Extent.inStore (e : Extent) : Prop := 1 ≤ e.count ∧ e.base + e.count ≤ Config.storePages

/-- The extents of defined regions lie in the store and share no page (R4, R13). -/
def State.extentsLaw (s : State) : Prop :=
  (∀ r g, s.slot r = some g → g.extent.inStore) ∧
    ∀ r q g h page, s.slot r = some g → s.slot q = some h → r ≠ q →
      ¬ (g.extent.hasPage page = true ∧ h.extent.hasPage page = true)

/-- A present digest is tagged with the region's generation (R8). -/
def State.digestLaw (s : State) : Prop :=
  ∀ r g d, s.slot r = some g → g.digest = some d → d.tag = g.generation

/-- While the part is STARTING no region is defined, no job or report exists and every port is DETACHED (R19,
R93, R104, R106); while RST_n is low the part is STARTING, no supervisor is sampled and the divider is held, and
otherwise there is a supervisor (R45, R170). -/
def State.partLaw (s : State) : Prop :=
  (s.part = .starting → (∀ r, s.slot r = none) ∧ s.jobQueue = [] ∧ s.current = none ∧ s.starts = [] ∧
      s.reports = [] ∧ ∀ p, (s.port p).state = .detached) ∧
    (s.rstLow = true → s.part = .starting ∧ s.supervisor = none ∧ s.divider = 0) ∧
    (s.rstLow = false → s.supervisor.isSome = true) ∧ s.divider < Config.tickPeriods

/-! ### The port interfaces -/

/-- At most 16 records, at most one OVERFLOW marker, and without one at most 15 (R141, R144). -/
def PortIface.notesLaw (i : PortIface) : Prop :=
  i.notes.length ≤ 16 ∧ (i.notes.filter Record.isOverflow).length ≤ 1 ∧
    (i.notes.length = 16 → i.notes.any Record.isOverflow = true)

/-- At most eight posted writes, each of at least one lane, as is a held one (R108, R127); a write is held
only behind a full queue, and then there is no blocking access (R129, R132). -/
def PortIface.pathLaw (i : PortIface) : Prop :=
  i.posted.length ≤ Config.postedCapacity ∧ (∀ w ∈ i.posted, w.be ≠ 0#4) ∧
    (∀ h, i.held = some h → h.write.be ≠ 0#4) ∧
    (i.held.isSome = true → i.posted.length = Config.postedCapacity ∧ i.blocking = none)

/-- The fence list holds at most one mark for a region, each with a count from 1 to the writes still in
the port's path (R61, R63). -/
def PortIface.fencesLaw (i : PortIface) : Prop :=
  (i.fences.map FenceMark.region).Nodup ∧ ∀ m ∈ i.fences, 1 ≤ m.count ∧ m.count ≤ i.writesInPath

/-- Nothing is accepted or held and nothing stands in the fence list. -/
def PortIface.pathEmpty (i : PortIface) : Prop :=
  i.posted = [] ∧ i.blocking = none ∧ i.held = none ∧ i.fences = []

/-- A port whose bus is not served is DETACHED with an empty write path, and so is the write path of every
port while the part is STARTING (R136, R166, R171); an access waits only while the bus is not served, and
is an access of that port (R166). -/
def State.busLaw (s : State) : Prop :=
  ∀ p, (s.served p = false → (s.port p).state = .detached ∧ (s.port p).pathEmpty) ∧
    (s.part = .starting → (s.port p).pathEmpty) ∧
    ∀ c, (s.port p).waiting = some c →
      s.served p = false ∧ c.wf = true ∧ (encodeBus c).map Prod.fst = some p

/-- Every port's notification queue keeps its law (R141). -/
def State.notesLaw (s : State) : Prop := ∀ p, (s.port p).notesLaw

/-- Every port's write path keeps its law (R127, R129). -/
def State.pathsLaw (s : State) : Prop := ∀ p, (s.port p).pathLaw

/-! ### What is in flight between the blocks -/

/-- The fence of region `r` at port `p` in flight: requests not yet taken, marks, completions not yet
taken. -/
def State.fencesInFlight (s : State) (p : Port) (r : RegionIx) : Nat :=
  s.fenceRequests.count (p, r) + ((s.port p).fences.filter fun m => m.region = r).length +
    s.completions.count (p, r)

/-- Each awaited fence is in flight exactly once, and no other is; every fence list keeps its law (R61). -/
def State.fencesLaw (s : State) : Prop :=
  (∀ p r, s.fencesInFlight p r = if s.awaits r p then 1 else 0) ∧ ∀ p, (s.port p).fencesLaw

/-- The region a report concerns. -/
def Report.region : Report → RegionIx
  | .wipe r => r
  | .digest r _ => r

/-- The kind of job a report completes. -/
def Report.kind : Report → JobKind
  | .wipe _ => .wipe
  | .digest _ _ => .digest

/-- The job of region `r` with extent `e`, begun: in progress with its extent, or its completion reported and
not yet taken, and not both (R93, R95). -/
def State.begun (s : State) (r : RegionIx) (e : Extent) (k : JobKind) (q : Option Port) : Prop :=
  (∃ x, s.current = some x ∧ x.job = ⟨k, r, q⟩ ∧ x.extent = e ∧ x.done < e.words ∧
      ∀ y ∈ s.reports, y.region ≠ r) ∨
    ((∀ x, s.current = some x → x.job.region ≠ r) ∧
      (s.reports.filter fun y => y.region = r).map Report.kind = [k])

/-- The engine has begun no job of region `r`, and no report of one stands (R93, R95). -/
def State.notBegun (s : State) (r : RegionIx) : Prop :=
  (∀ x, s.current = some x → x.job.region ≠ r) ∧ r ∉ s.starts ∧ ∀ y ∈ s.reports, y.region ≠ r

/-- The engine has nothing for region `r` (R93). -/
def State.noJobFor (s : State) (r : RegionIx) : Prop := (∀ j ∈ s.jobQueue, j.region ≠ r) ∧ s.notBegun r

/-- An IDLE engine has an empty queue: a job starts in the event that queues it or that ends the one
before it (R94, R95). -/
def State.engineLaw (s : State) : Prop := s.part = .ready → s.current = none → s.jobQueue = []

/-- The job field of every region is what the sweep engine has for it: none; queued while the job is in the
queue, or begun with its start not yet taken, once; running while it is begun and its start taken (R10, R27,
R93, R95, log entry 13). And an IDLE engine has no job queued (R94). -/
def State.jobsLaw (s : State) : Prop :=
  s.engineLaw ∧ ∀ r, match s.slot r with
    | none => s.noJobFor r
    | some g => match g.job with
      | none => s.noJobFor r
      | some ⟨k, false, q⟩ =>
        ((s.jobQueue.filter fun j => j.region = r) = [⟨k, r, q⟩] ∧ s.notBegun r) ∨
          ((∀ j ∈ s.jobQueue, j.region ≠ r) ∧ s.begun r g.extent k q ∧ s.starts.count r = 1)
      | some ⟨k, true, q⟩ => (∀ j ∈ s.jobQueue, j.region ≠ r) ∧ s.begun r g.extent k q ∧ r ∉ s.starts

/-! ### All of it -/

/-- The device's laws together. -/
def State.lawful (s : State) : Prop :=
  s.store.wf = true ∧ s.regionsLaw ∧ s.extentsLaw ∧ s.digestLaw ∧ s.partLaw ∧ s.notesLaw ∧ s.pathsLaw ∧
    s.busLaw ∧ s.fencesLaw ∧ s.jobsLaw

/-! ### Jobs that join the queue -/

/-- The engine is IDLE and its queue is empty (R94). -/
abbrev State.engineFree (s : State) : Prop := s.part = .ready ∧ s.current = none ∧ s.jobQueue = []

/-- Slot `r` holding `g` with its job field queued, and the job in the engine's queue, or in progress at once
on an IDLE engine with its start reported (R93 to R95, R101). -/
def State.withJob (s : State) (r : RegionIx) (g : Region) (k : JobKind) (q : Option Port) : State :=
  let queued : State := s.setSlot r (some { g with job := some ⟨k, false, q⟩ })
  if s.engineFree then
    { queued with current := some ⟨⟨k, r, q⟩, g.extent, 0, 0xFFFFFFFF#32⟩, starts := s.starts ++ [r] }
  else { queued with jobQueue := s.jobQueue ++ [⟨k, r, q⟩] }

/-- The engine of `t` after `jobs` joined that of `s` one after another: an IDLE one starts the first and
reports its start (R94, R95). -/
def State.jobsJoined (s t : State) (jobs : List Job) : Prop :=
  match decide s.engineFree, jobs with
  | true, j :: js => t.jobQueue = js ∧ t.starts = s.starts ++ [j.region] ∧
      t.current = (s.slot j.region).map fun g => ⟨j, g.extent, 0, 0xFFFFFFFF#32⟩
  | _, _ => t.jobQueue = s.jobQueue ++ jobs ∧ t.starts = s.starts ∧ t.current = s.current

/-! ### What the events on many regions do -/

/-- The other ports' holds of a region. -/
def Region.heldByOthers (g : Region) (p : Port) : Bool :=
  [Port.p0, .p1, .p2, .p3].any fun q => decide (q ≠ p) && (g.holders.get q).isSome

/-- The end of port `p`'s EXCLUSIVE hold `x` at a port reset queues an automatic DIGEST job (R68). -/
def Region.autoJob (g : Region) (p : Port) : Bool :=
  match g.holders.get p with
  | some x => decide (x.mode = .exclusive) && x.wrote && g.attrs.digestOnRelease
  | none => false

/-- The region without port `p`'s hold or wait entry, before any pass: a SHARED hold or an entry is removed,
an EXCLUSIVE hold is settled as revoked, its automatic job queued (R38, R41, R44, R68, R165). -/
def Region.cut (g : Region) (p : Port) : Region :=
  let rest : Region :=
    { g with holders := g.holders.set p none, queue := g.queue.filter fun e => e.port ≠ p }
  match g.holders.get p with
  | none => rest
  | some x => match x.mode with
    | .shared => { rest with state := if g.heldByOthers p then .shared else .free }
    | .exclusive => { rest with
        state := .free
        generation := if x.wrote then g.generation + 1#16 else g.generation
        digest := if x.wrote then none else g.digest
        taint := x.wrote || g.taint
        job := if g.autoJob p then some ⟨.digest, false, none⟩ else g.job }

/-- What slot `r` holds after the grant pass of region `g` (R31, R32). -/
def State.passed (s : State) (r : RegionIx) (g : Region) : Option Region :=
  ((s.setSlot r (some g)).grantPass r).slot r

/-- The GRANTED record of port `q` for region `r`, if the region is its in `t` and was not in `s` (R32). -/
def State.newGrant (s t : State) (q : Port) (r : RegionIx) : Option Record :=
  match s.slot r, t.slot r with
  | some g, some h => match g.holders.get q, h.holders.get q with
    | none, some x => some (.granted r x.mode h.generation h.taint)
    | _, _ => none
  | _, _ => none

/-- The notification queue after device records are offered to an ATTACHED port one after another (R144). -/
def appendAll (q : List Record) (xs : List Record) : List Record := xs.foldl appendDevice q

/-- Port `q` has taken its GRANTED records, in ascending order of region index, and nothing else (R165). -/
def State.grantedOnly (s t : State) (q : Port) : Prop :=
  t.port q = { s.port q with
    notes := appendAll (s.port q).notes ((List.finRange 32).filterMap (s.newGrant t q)) }

/-- The DIGEST jobs a port reset of port `p` queues, in ascending order of region index (R68, R165). -/
def State.autoJobs (s : State) (p : Port) : List Job :=
  (List.finRange 32).filterMap fun r =>
    if (s.slot r).any (fun g => g.autoJob p) then some ⟨.digest, r, none⟩ else none

/-- What a port reset of port `p` leaves beside that port's own interface: its marks reported, its holds
and waits cut region by region with the passes, the automatic jobs in the engine, GRANTED records at the
other ports, and everything else as it was (R44, R64, R68, R84, R135, R165). -/
def State.othersAfterReset (s t : State) (p : Port) : Prop :=
  t = { s with
    slots := t.slots, ports := t.ports, jobQueue := t.jobQueue, current := t.current, starts := t.starts
    completions := s.completions ++ (s.port p).fences.map fun m => (p, m.region) } ∧
    (∀ r, s.slot r = none → t.slot r = none) ∧
    (∀ r g, s.slot r = some g → ¬ g.holds p → ¬ g.waits p → t.slot r = some g) ∧
    (∀ r g, s.slot r = some g → g.holds p ∨ g.waits p → t.slot r = s.passed r (g.cut p)) ∧
    s.jobsJoined t (s.autoJobs p) ∧ ∀ q, q ≠ p → s.grantedOnly t q

/-! ### A tick -/

/-- The hold after a tick at a port with threshold `t`; none if its last tick was that one (R46, R49, R52). -/
def Hold.ticked (x : Hold) (t : Half) : Option Hold :=
  match x.remaining with
  | none => some x
  | some n =>
    if n = 1#16 then none
    else some { x with remaining := some (n - 1#16), warned := x.warned || decide (n - 1#16 = t) }

/-- The hold's last tick is the next one. -/
def Hold.lastTick (x : Hold) : Bool := decide (x.remaining = some 1#16)

/-- The port whose hold ends at the next tick, and the hold, if it is EXCLUSIVE (R54). -/
def Region.losesExclusive (g : Region) : Option (Port × Hold) :=
  [Port.p0, .p1, .p2, .p3].findSome? fun p => match g.holders.get p with
    | some x => if x.mode = .exclusive ∧ x.lastTick = true then some (p, x) else none
    | none => none

/-- Some hold of the region ends at the next tick. -/
def Region.losesHold (g : Region) : Bool :=
  [Port.p0, .p1, .p2, .p3].any fun p => (g.holders.get p).any Hold.lastTick

/-- The region after a tick and before the pass that follows an expiry, at ports with these thresholds: an
EXCLUSIVE hold that ends drains as revoked, the last SHARED one leaves the region FREE (R46, R52 to R55). -/
def Region.ticked (g : Region) (threshold : Port → Half) : Region :=
  let left : PerPort (Option Hold) := PerPort.ofFun fun p => (g.holders.get p).bind fun x => x.ticked (threshold p)
  { g with
    holders := left
    state := match g.losesExclusive with
      | some (p, x) => .draining ⟨.release ⟨x.wrote, true⟩, onlyPort p⟩
      | none =>
        if g.losesHold then
          if [Port.p0, .p1, .p2, .p3].any fun p => (left.get p).isSome then .shared else .free
        else g.state }

/-- The record a tick offers to port `p` for region `r`: REVOKED for a hold that ends, LEASE_WARNING for one
that comes down on the threshold unwarned, GRANTED for one the pass after an expiry makes (R32, R49, R52). -/
def State.tickRecord (s t : State) (p : Port) (r : RegionIx) : Option Record :=
  match (s.slot r).bind fun g => g.holders.get p with
  | none => s.newGrant t p r
  | some x => match x.remaining with
    | none => none
    | some n =>
      if n = 1#16 then some (.revoked r (if x.mode = .exclusive then .exclusive else .shared) .lease)
      else if n - 1#16 = (s.port p).lwarn ∧ (s.port p).lwarn ≠ 0#16 ∧ x.warned = false then
        some (.leaseWarning r (s.port p).lwarn)
      else none

/-! ### Accesses that waited for service -/

/-- Port `p`'s waiting access, once its bus is served, offered at that moment (R166, R171). -/
def serveWaiting (o : Host.Outcome State Fault Refusal) (p : Port) : Host.Outcome State Fault Refusal :=
  match o with
  | .next s =>
    if s.served p then
      match (s.port p).waiting with
      | none => .next s
      | some c => exec c (s.updPort p fun i => { i with waiting := none })
    else .next s
  | .fault f => .fault f
  | .refused x => .refused x

/-! ### Runs -/

/-- The state after `n` steps, if none of them stops. -/
def State.after : Nat → State → Option State
  | 0, s => some s
  | n + 1, s => match step s with
    | .next t => State.after n t
    | .fault _ => none
    | .refused _ => none

/-- A run of `n` steps is safe: no step of it stops. -/
def State.safeFor (n : Nat) (s : State) : Prop := (s.after n).isSome = true

end Sys2Proof.Machine
end

