-- ==== Sys2Proof/Certificates/Slice0/Obligations.lean ====
section
/-! DEFINITION. The statements for the provers. Each says what a rule of the manual says of the machine;
a statement that rests on a choice of the model names its log entry. Result codes, command codes, bit
places and reset values stand here as the manual's numbers. -/

open Sys2Proof Sys2Proof.Machine

/-! ### The machine: one command a step, and the bus -/

/-- A step runs the command at the front of the queue on the state with the queue's rest. -/
def Obligations.StepRunsFrontCommand : Prop :=
  ∀ (s : State) (c : Instr) (rest : List Instr), s.pending = c :: rest →
    step s = exec c { s with pending := rest }

/-- With no command waiting a step is one REFCLK period of the divider, whose 8000th gives the tick (R45).
That a period passes when no command waits is the model's choice (log entry 7). -/
def Obligations.EmptyQueueStepIsRefclkPeriod : Prop :=
  ∀ s : State, s.pending = [] →
    (s.rstLow = true → step s = .next s) ∧
    (s.rstLow = false → s.divider < 7999 → step s = .next { s with divider := s.divider + 1 }) ∧
    (s.rstLow = false → s.divider = 7999 → step s = exec .leaseTick s)

/-- What a port's bus access is as a command, and what access a command is: the two maps agree on every
well-formed command and on every access that is a row of the table (R108, R109, R174, R175, 11.4). -/
def Obligations.BusAccessAndCommandAgree : Prop :=
  ∀ (p : Port) (b : BusAccess) (i : Instr),
    decodeBus p b = some i ↔ i.wf = true ∧ encodeBus i = some (p, b)

/-- PnRDY is high exactly while the bus is served and carries no held access (R132, R166, R171). A host's
access that is not taken: an ill-formed term is refused (log entry 6), an access on a port whose bus still
carries one stops with a fault (R126, log entry 5), one begun while the bus is not served waits (R166,
R171), and the CMD write that the reset overtook and completed is dropped (R166, R179, log entry 22). -/
def Obligations.HostAccessNotTaken : Prop :=
  (∀ (s : State) (p : Port), s.ready p = true ↔ s.rstLow = false ∧ (s.port p).resetLow = false ∧
    (s.port p).blocking = none ∧ (s.port p).held = none) ∧
  ∀ (s : State) (p : Port) (b : BusAccess) (c : Instr), encodeBus c = some (p, b) →
    (c.wf = false → exec c s = .refused .illFormed) ∧
    (c.wf = true → s.served p = true → (s.port p).busHeld = true → exec c s = .fault (.busHeld p)) ∧
    (c.wf = true → s.served p = false → (s.port p).overtaken = some c →
      exec c s = .next (s.updPort p fun i => { i with overtaken := none })) ∧
    (c.wf = true → s.served p = false → (s.port p).overtaken ≠ some c →
      ((s.port p).waiting.isSome = true → exec c s = .fault (.busHeld p)) ∧
      ((s.port p).waiting = none → exec c s = .next (s.updPort p fun i => { i with waiting := some c })))

/-! ### Commands (chapters 1, 2, 3, 5, 6, 9, 10) -/

/-- ATTACH: its three outcomes, each with everything else unchanged (R161). -/
def Obligations.AttachDecided : Prop :=
  ∀ (s : State) (p : Port) (c : CmdFields), s.takes p →
    (s.part = .starting → exec (.attach p c) s = .next (s.replied p (c.word 0x01#8) 0x13#8 0#32)) ∧
    (s.part = .ready → (s.port p).state = .attached →
      exec (.attach p c) s = .next (s.replied p (c.word 0x01#8) 0x12#8 0#32)) ∧
    (s.part = .ready → (s.port p).state = .detached →
      exec (.attach p c) s =
        .next ((s.updPort p fun i => { i with state := .attached }).replied p (c.word 0x01#8) 0x00#8 0#32))

/-- The checks that begin the commands but ATTACH, in their order: STARTING, NOT_ATTACHED, then NO_REGION
for a port's region commands and NOT_SUPERVISOR, then NO_REGION, for the supervisor's; a refusal leaves
only its result (R12, R25). -/
def Obligations.CommandChecks : Prop :=
  ∀ (s : State) (p : Port) (c : CmdFields), s.takes p →
    (∀ x ∈ [((0x02 : Byte), Instr.detach p c), (0x10, .acquire p c), (0x11, .cancel p c), (0x12, .release p c),
        (0x13, .renew p c), (0x18, .makePrivate p c), (0x19, .relinquish p c), (0x1C, .digest p c),
        (0x20, .message p c), (0x40, .define p c), (0x41, .modify p c), (0x42, .delete p c),
        (0x43, .reclaim p c), (0x44, .evict p c)],
      (s.part = .starting → exec x.2 s = .next (s.replied p (c.word x.1) 0x13#8 0#32)) ∧
      (s.part = .ready → (s.port p).state = .detached →
        exec x.2 s = .next (s.replied p (c.word x.1) 0x11#8 0#32))) ∧
    (s.part = .ready → (s.port p).state = .attached →
      (∀ x ∈ [((0x10 : Byte), Instr.acquire p c), (0x11, .cancel p c), (0x12, .release p c), (0x13, .renew p c),
          (0x18, .makePrivate p c), (0x19, .relinquish p c), (0x1C, .digest p c)],
        s.slot c.region = none → exec x.2 s = .next (s.replied p (c.word x.1) 0x09#8 0#32)) ∧
      (∀ x ∈ [((0x40 : Byte), Instr.define p c), (0x41, .modify p c), (0x42, .delete p c), (0x43, .reclaim p c),
          (0x44, .evict p c)],
        s.supervisor ≠ some p → exec x.2 s = .next (s.replied p (c.word x.1) 0x0D#8 0#32)) ∧
      ∀ x ∈ [((0x41 : Byte), Instr.modify p c), (0x42, .delete p c), (0x43, .reclaim p c)],
        s.supervisor = some p → s.slot c.region = none →
          exec x.2 s = .next (s.replied p (c.word x.1) 0x09#8 0#32))

/-- ACQUIRE on a defined region: the refusals of R26 in their order, then GRANTED with the new hold,
QUEUED with the entry at the tail, or BUSY (R20, R26 to R29). -/
def Obligations.AcquireDecided : Prop :=
  ∀ (s : State) (p : Port) (c : CmdFields) (g : Region), s.commands p → s.slot c.region = some g →
    let m : Mode := if c.exclusive then .exclusive else .shared
    let grantable : Prop :=
      (c.exclusive = false ∧ (g.state = .free ∨ g.state = .shared) ∧ g.queue = []) ∨
        (c.exclusive = true ∧ g.state = .free ∧ g.queue = [] ∧ g.job = none)
    let passes : Prop :=
      g.attrs.members.get p = true ∧ (∀ q, g.state ≠ .ownedBy q) ∧ ¬ g.holds p ∧ ¬ g.waits p
    let hold : Hold := ⟨m, if g.attrs.lease = 0#16 then none else some g.attrs.lease, false, false⟩
    (g.attrs.members.get p = false →
      exec (.acquire p c) s = .next (s.replied p (c.word 0x10#8) 0x0A#8 0#32)) ∧
    (g.attrs.members.get p = true → (∃ q, g.state = .ownedBy q) →
      exec (.acquire p c) s = .next (s.replied p (c.word 0x10#8) 0x0B#8 0#32)) ∧
    (g.attrs.members.get p = true → (∀ q, g.state ≠ .ownedBy q) → g.holds p →
      exec (.acquire p c) s = .next (s.replied p (c.word 0x10#8) 0x07#8 0#32)) ∧
    (g.attrs.members.get p = true → (∀ q, g.state ≠ .ownedBy q) → ¬ g.holds p → g.waits p →
      exec (.acquire p c) s = .next (s.replied p (c.word 0x10#8) 0x08#8 0#32)) ∧
    (passes → grantable →
      exec (.acquire p c) s =
        .next ((s.setSlot c.region (some { g with
          state := if c.exclusive then .exclusive else .shared, holders := g.holders.set p (some hold) })).replied
            p (c.word 0x10#8) 0x01#8
              (g.generation.zeroExtend 32 ||| (if g.taint then 0x10000#32 else 0#32) |||
                (if c.exclusive then 0x20000#32 else 0#32)))) ∧
    (passes → ¬ grantable → c.wait = true →
      exec (.acquire p c) s =
        .next ((s.setSlot c.region (some { g with queue := g.queue ++ [⟨p, m⟩] })).replied
          p (c.word 0x10#8) 0x02#8 (BitVec.ofNat 32 (g.queue.length + 1)))) ∧
    (passes → ¬ grantable → c.wait = false →
      exec (.acquire p c) s = .next (s.replied p (c.word 0x10#8) 0x03#8 0#32))

/-- CANCEL: the port's entry leaves the queue, the others keep their order, and the grant pass runs;
NOT_QUEUED without an entry (R24, R35). -/
def Obligations.CancelDecided : Prop :=
  ∀ (s : State) (p : Port) (c : CmdFields) (g : Region), s.commands p → s.slot c.region = some g →
    (g.waits p → exec (.cancel p c) s =
      .next ((((s.launched p (c.word 0x11#8)).setSlot c.region
        (some { g with queue := g.queue.filter fun e => e.port ≠ p })).grantPass c.region).answered p
          0x04#8 0#32)) ∧
    (¬ g.waits p → exec (.cancel p c) s = .next (s.replied p (c.word 0x11#8) 0x06#8 0#32))

/-- RELEASE: a SHARED hold is removed, the last one leaving the region FREE, and the pass runs; an
EXCLUSIVE hold drains as released with a fence request to its port; NOT_HELD without a hold (R37 to R39). -/
def Obligations.ReleaseDecided : Prop :=
  ∀ (s : State) (p : Port) (c : CmdFields) (g : Region), s.commands p → s.slot c.region = some g →
    (¬ g.holds p → exec (.release p c) s = .next (s.replied p (c.word 0x12#8) 0x05#8 0#32)) ∧
    (∀ h, g.holders.get p = some h → h.mode = .shared → (∃ q, q ≠ p ∧ g.holds q) →
      exec (.release p c) s =
        .next ((((s.launched p (c.word 0x12#8)).setSlot c.region (some { g with
          state := .shared, holders := g.holders.set p none })).grantPass c.region).answered p 0x00#8 0#32)) ∧
    (∀ h, g.holders.get p = some h → h.mode = .shared → (∀ q, g.holds q → q = p) →
      exec (.release p c) s =
        .next ((((s.launched p (c.word 0x12#8)).setSlot c.region (some { g with
          state := .free, holders := g.holders.set p none })).grantPass c.region).answered p 0x00#8 0#32)) ∧
    (∀ h, g.holders.get p = some h → h.mode = .exclusive →
      exec (.release p c) s =
        .next (State.replied { s.setSlot c.region (some { g with
            state := .draining ⟨.release ⟨h.wrote, false⟩, onlyPort p⟩, holders := g.holders.set p none }) with
          fenceRequests := s.fenceRequests ++ [(p, c.region)] } p (c.word 0x12#8) 0x00#8 0#32))

/-- DETACH in a lawful state, whole: the port becomes DETACHED and keeps everything else of its interface;
each EXCLUSIVE hold drains as released, with fence requests in ascending order of region; a SHARED hold or a
wait entry leaves its region, with the pass; a region the port had no part in, the other ports but for the
GRANTED records of the passes, and everything else are as they were (R38, R39, R41, R163). -/
def Obligations.DetachDecided : Prop :=
  ∀ (s : State) (p : Port) (c : CmdFields), s.commands p → s.regionsLaw →
    ∃ t, exec (.detach p c) s = .next t ∧
      t = { s with
        slots := t.slots, ports := t.ports
        fenceRequests := s.fenceRequests ++ (List.finRange 32).filterMap fun r =>
          if ((s.slot r).bind fun g => g.holders.get p).map Hold.mode = some .exclusive then some (p, r) else none } ∧
      t.port p = { s.port p with state := .detached, cmd := c.word 0x02#8, cres := 0x00#8, cresv := 0#32, bus := .wrote } ∧
      (∀ q, q ≠ p → s.grantedOnly t q) ∧
      (∀ r, s.slot r = none → t.slot r = none) ∧
      (∀ r g, s.slot r = some g → ¬ g.holds p → ¬ g.waits p → t.slot r = some g) ∧
      (∀ r g h, s.slot r = some g → g.holders.get p = some h → h.mode = .exclusive →
        t.slot r = some { g with
          state := .draining ⟨.release ⟨h.wrote, false⟩, onlyPort p⟩, holders := g.holders.set p none }) ∧
      (∀ r g, s.slot r = some g → (g.holders.get p).map Hold.mode = some .shared ∨ g.waits p →
        t.slot r = s.passed r (g.cut p)) ∧
      (∀ r g, s.slot r = some g → ∃ h, t.slot r = some h ∧ ¬ h.holds p ∧ ¬ h.waits p ∧
        h.generation = g.generation ∧ h.taint = g.taint ∧ h.digest = g.digest ∧ h.job = g.job)

/-- RENEW: the count becomes the lease length and the warned flag is cleared; NOT_HELD before NO_LEASE
(R51). -/
def Obligations.RenewDecided : Prop :=
  ∀ (s : State) (p : Port) (c : CmdFields) (g : Region), s.commands p → s.slot c.region = some g →
    (¬ g.holds p → exec (.renew p c) s = .next (s.replied p (c.word 0x13#8) 0x05#8 0#32)) ∧
    (g.holds p → g.attrs.lease = 0#16 →
      exec (.renew p c) s = .next (s.replied p (c.word 0x13#8) 0x0C#8 0#32)) ∧
    (∀ h, g.holders.get p = some h → g.attrs.lease ≠ 0#16 →
      exec (.renew p c) s =
        .next ((s.setSlot c.region (some { g with
          holders := g.holders.set p (some { h with remaining := some g.attrs.lease, warned := false }) })).replied
            p (c.word 0x13#8) 0x00#8 0#32))

/-- MAKE_PRIVATE: the checks of R78 in their order, then the EXCLUSIVE hold becomes proprietorship with no
fence and no record. RELINQUISH: the proprietor's region drains toward its wipe with a fence request to the
proprietor; NOT_PROPRIETOR to anybody else (R78, R79, R85). -/
def Obligations.PrivacyCommandsDecided : Prop :=
  ∀ (s : State) (p : Port) (c : CmdFields) (g : Region), s.commands p → s.slot c.region = some g →
    let exclusiveHolder : Prop := (g.holders.get p).map Hold.mode = some .exclusive
    (¬ exclusiveHolder → exec (.makePrivate p c) s = .next (s.replied p (c.word 0x18#8) 0x05#8 0#32)) ∧
    (exclusiveHolder → g.attrs.mayPrivate = false →
      exec (.makePrivate p c) s = .next (s.replied p (c.word 0x18#8) 0x17#8 0#32)) ∧
    (exclusiveHolder → g.attrs.mayPrivate = true → g.queue ≠ [] →
      exec (.makePrivate p c) s = .next (s.replied p (c.word 0x18#8) 0x03#8 0#32)) ∧
    (exclusiveHolder → g.attrs.mayPrivate = true → g.queue = [] →
      exec (.makePrivate p c) s =
        .next ((s.setSlot c.region (some { g with
          state := .ownedBy p, holders := g.holders.set p none })).replied p (c.word 0x18#8) 0x00#8 0#32)) ∧
    (g.state ≠ .ownedBy p → exec (.relinquish p c) s = .next (s.replied p (c.word 0x19#8) 0x16#8 0#32)) ∧
    (g.state = .ownedBy p →
      exec (.relinquish p c) s =
        .next (State.replied { s.setSlot c.region (some { g with state := .draining ⟨.relinquish p, onlyPort p⟩ }) with
          fenceRequests := s.fenceRequests ++ [(p, c.region)] } p (c.word 0x19#8) 0x00#8 0#32))

/-- DIGEST: a DIGEST job of a SHARED holder joins the engine's queue with the holder as requester, or is in
progress at once on an IDLE engine, and the region's job field reads queued either way; NOT_HELD before BUSY
(R10, R93 to R95, R101). That an IDLE engine's start stands reported until JOB_START takes it is log entry 13;
that an IDLE engine whose queue is not empty, which no run has, starts nothing here is log entry 18. -/
def Obligations.DigestDecided : Prop :=
  ∀ (s : State) (p : Port) (c : CmdFields) (g : Region), s.commands p → s.slot c.region = some g →
    let sharedHolder : Prop := (g.holders.get p).map Hold.mode = some .shared
    (¬ sharedHolder → exec (.digest p c) s = .next (s.replied p (c.word 0x1C#8) 0x05#8 0#32)) ∧
    (sharedHolder → g.job ≠ none → exec (.digest p c) s = .next (s.replied p (c.word 0x1C#8) 0x03#8 0#32)) ∧
    (sharedHolder → g.job = none →
      exec (.digest p c) s =
        .next ((s.withJob c.region g .digest (some p)).replied p (c.word 0x1C#8) 0x00#8 0#32))

/-- MESSAGE: NO_TARGET, then TARGET_FULL at 15 or 16 records, then the record with CARG0 at the target's
tail, the issuing port itself among the targets (R154). -/
def Obligations.MessageDecided : Prop :=
  ∀ (s : State) (p : Port) (c : CmdFields), s.commands p →
    ((s.port c.target).state = .detached →
      exec (.message p c) s = .next (s.replied p (c.word 0x20#8) 0x14#8 0#32)) ∧
    ((s.port c.target).state = .attached → 15 ≤ (s.port c.target).notes.length →
      exec (.message p c) s = .next (s.replied p (c.word 0x20#8) 0x15#8 0#32)) ∧
    ((s.port c.target).state = .attached → (s.port c.target).notes.length ≤ 14 →
      exec (.message p c) s =
        .next ((s.updPort c.target fun i => { i with notes := i.notes ++ [.message p (s.port p).carg0] }).replied
          p (c.word 0x20#8) 0x00#8 0#32))

/-- DEFINE by the supervisor: IN_USE, BAD_EXTENT, OVERLAP in that order, then the slot filled and a fence
request to each of the four ports (R13, R14, 11.5). -/
def Obligations.DefineDecided : Prop :=
  ∀ (s : State) (p : Port) (c : CmdFields), s.supervises p →
    let i := s.port p
    let e : Extent := ⟨(i.carg0.extractLsb' 0 10).toNat, (i.carg0.extractLsb' 16 10).toNat⟩
    let bad : Prop := e.count = 0 ∨ 512 < e.base + e.count
    let overlap : Prop := ∃ q g page, s.slot q = some g ∧ g.extent.hasPage page = true ∧ e.hasPage page = true
    let a : Attributes := ⟨i.carg1.extractLsb' 0 16,
      ⟨i.carg2.getLsbD 0, i.carg2.getLsbD 1, i.carg2.getLsbD 2, i.carg2.getLsbD 3⟩,
      i.carg2.getLsbD 8, i.carg2.getLsbD 9, i.carg2.getLsbD 10⟩
    (s.slot c.region ≠ none → exec (.define p c) s = .next (s.replied p (c.word 0x40#8) 0x19#8 0#32)) ∧
    (s.slot c.region = none → bad →
      exec (.define p c) s = .next (s.replied p (c.word 0x40#8) 0x0F#8 0#32)) ∧
    (s.slot c.region = none → ¬ bad → overlap →
      exec (.define p c) s = .next (s.replied p (c.word 0x40#8) 0x0E#8 0#32)) ∧
    (s.slot c.region = none → ¬ bad → ¬ overlap →
      exec (.define p c) s =
        .next (State.replied { s.setSlot c.region (some {
              state := .draining ⟨.define, ⟨true, true, true, true⟩⟩, extent := e, attrs := a,
              holders := ⟨none, none, none, none⟩, queue := [], generation := 0#16, digest := none,
              taint := false, job := none }) with
            fenceRequests := s.fenceRequests ++
              [(.p0, c.region), (.p1, c.region), (.p2, c.region), (.p3, c.region)] }
          p (c.word 0x40#8) 0x00#8 0#32))

/-- MODIFY and DELETE by the supervisor: BUSY unless the region is FREE with no waiter and no job; then
the five attributes are replaced, or the slot returns to UNDEFINED (R16, R17). -/
def Obligations.ModifyAndDeleteDecided : Prop :=
  ∀ (s : State) (p : Port) (c : CmdFields) (g : Region), s.supervises p → s.slot c.region = some g →
    let i := s.port p
    let idle : Prop := g.state = .free ∧ g.queue = [] ∧ g.job = none
    let a : Attributes := ⟨i.carg1.extractLsb' 0 16,
      ⟨i.carg2.getLsbD 0, i.carg2.getLsbD 1, i.carg2.getLsbD 2, i.carg2.getLsbD 3⟩,
      i.carg2.getLsbD 8, i.carg2.getLsbD 9, i.carg2.getLsbD 10⟩
    (¬ idle →
      exec (.modify p c) s = .next (s.replied p (c.word 0x41#8) 0x03#8 0#32) ∧
      exec (.delete p c) s = .next (s.replied p (c.word 0x42#8) 0x03#8 0#32)) ∧
    (idle →
      exec (.modify p c) s =
        .next ((s.setSlot c.region (some { g with attrs := a })).replied p (c.word 0x41#8) 0x00#8 0#32) ∧
      exec (.delete p c) s =
        .next ((s.setSlot c.region none).replied p (c.word 0x42#8) 0x00#8 0#32))

/-- RECLAIM by the supervisor, by the region's state: where it goes, what it awaits, the fence requests and
the WIPE job it makes, with the region's job field queued and an IDLE engine's job in progress at once, and the
one record each holder, proprietor or waiter is offered; PENDING and BUSY change nothing (R67, R70, R72, R87,
R88, R93, R94). That the job's start stands reported until JOB_START takes it is log entry 13; that an IDLE
engine whose queue is not empty, which no run has, starts nothing here is log entry 18. -/
def Obligations.ReclaimDecided : Prop :=
  ∀ (s : State) (p : Port) (c : CmdFields) (g : Region), s.supervises p → s.slot c.region = some g → g.lawful →
    let r := c.region
    let emptied : RegionState → Option JobMark → Region := fun st j =>
      { g with state := st, holders := ⟨none, none, none, none⟩, queue := [], job := j }
    let holderSet : PerPort Bool := ⟨g.holders.p0.isSome, g.holders.p1.isSome, g.holders.p2.isSome, g.holders.p3.isSome⟩
    let lost : Port → Option Record := fun q =>
      if g.state = .ownedBy q then some (.revoked r .proprietor .reclaim)
      else match g.holders.get q with
        | some h => some (.revoked r (if h.mode = .exclusive then .exclusive else .shared) .reclaim)
        | none => if g.queue.any (fun e => e.port = q) then some (.dropped r) else none
    let news : Port → List Record := fun q => match (s.port q).state, lost q with
      | .attached, some x => appendDevice (s.port q).notes x
      | _, _ => (s.port q).notes
    let reached : State → State → List (Port × RegionIx) → Prop := fun t u fences =>
      t = { u with
        fenceRequests := s.fenceRequests ++ fences
        ports := PerPort.ofFun fun q =>
          if q = p then { s.port q with notes := news q, cmd := c.word 0x43#8, cres := 0x00#8, cresv := 0#32, bus := .wrote }
          else { s.port q with notes := news q } }
    (g.state = .free ∨ g.state = .shared → g.job = none → ∃ t, exec (.reclaim p c) s = .next t ∧
      reached t (s.withJob r (emptied .wiping none) .wipe (some p)) []) ∧
    (g.state = .free ∨ g.state = .shared → g.job ≠ none → ∃ t, exec (.reclaim p c) s = .next t ∧
      reached t (s.setSlot r (some (emptied (.draining ⟨.reclaim p, ⟨false, false, false, false⟩⟩) g.job))) []) ∧
    (g.state = .exclusive → ∃ t, exec (.reclaim p c) s = .next t ∧
      reached t (s.setSlot r (some (emptied (.draining ⟨.reclaim p, holderSet⟩) none)))
        (([.p0, .p1, .p2, .p3].filter fun q => (g.holders.get q).isSome).map fun q => (q, r))) ∧
    (∀ q, g.state = .ownedBy q → ∃ t, exec (.reclaim p c) s = .next t ∧
      reached t (s.setSlot r (some (emptied (.draining ⟨.reclaim p, onlyPort q⟩) none))) [(q, r)]) ∧
    (∀ d, g.state = .draining d → (d.reason = .define ∨ ∃ e, d.reason = .release e) →
      ∃ t, exec (.reclaim p c) s = .next t ∧
        reached t (s.setSlot r (some (emptied (.draining ⟨.reclaim p, d.awaited⟩) none))) []) ∧
    (∀ d q, g.state = .draining d → (d.reason = .relinquish q ∨ d.reason = .reclaim q) →
      exec (.reclaim p c) s = .next (s.replied p (c.word 0x43#8) 0x18#8 0#32)) ∧
    (g.state = .wiping → exec (.reclaim p c) s = .next (s.replied p (c.word 0x43#8) 0x03#8 0#32))

/-- A port reset by PnRST_n or by EVICT, whole: the port's interface takes its reset values, a CMD write that
the line overtakes is not taken and completes on the bus without a result (R166, R175; which write that is:
the port's right behind the reset in the queue, log entry 22), its marks are reported, its holds are revoked and settled, its waits removed, each with the pass,
and nothing else changes but for the GRANTED records of the passes; an automatic DIGEST's job field reads
queued, and the start that an IDLE engine makes of the first stands reported until JOB_START takes it (R68, R93,
R94; log entry 13; 18 for an IDLE engine whose queue is not empty, which no run has); with RST_n low only the
line falls, and a line already low does not fall (log entry 3). EVICT of the supervisor's own port is NOT_PERMITTED (R64,
R135, R165, R167, R168, R171). -/
def Obligations.PortResetAndEvict : Prop :=
  (∀ (c : Instr) (p : Port), c.writesCmd p = true ↔
    c.wf = true ∧ ∃ v, encodeBus c = some (p, .write 0x001#14 15#4 v)) ∧
  ∀ (s : State) (p : Port), s.regionsLaw →
    (s.rstLow = false → (s.port p).resetLow = false →
      let overtaken := s.pending.head?.filter fun c => c.writesCmd p && !(s.port p).busHeld
      ∃ t, exec (.portReset p) s = .next t ∧
        t.port p = { (s.port p).resetValues overtaken with resetLow := true } ∧ s.othersAfterReset t p) ∧
    (s.rstLow = true → exec (.portReset p) s = .next (s.updPort p fun i => { i with resetLow := true })) ∧
    ((s.port p).resetLow = true → exec (.portReset p) s = .next s) ∧
    ∀ c, s.supervises p →
      (c.target = p → exec (.evict p c) s = .next (s.replied p (c.word 0x44#8) 0x17#8 0#32)) ∧
      (c.target ≠ p → ∃ t, exec (.evict p c) s = .next (t.answered p 0x00#8 0#32) ∧
        t.port c.target = (s.port c.target).resetValues none ∧
        (s.launched p (c.word 0x44#8)).othersAfterReset t c.target)

/-! ### The register window (chapters 7, 9, 11) -/

/-- A CMD write with an undefined code answers BAD_COMMAND in every part and port state; a window write
that is no other row replaces an argument word if it is a full write to one, and is ignored otherwise;
POP removes the head or sets pop-empty; FCLR, NMASK, LWARN and FILL change their register; SARB from the
supervisor replaces the five initial priorities and sets every effective one to its own, and from another
port is ignored (R48, R120, R138, R140, R149, R150, R152, R158, R174, R175, 11.10). -/
def Obligations.WindowWritesTaken : Prop :=
  ∀ (s : State) (p : Port) (v : Word), s.takes p →
    ((v.extractLsb' 0 8) ∉ ([0x01, 0x02, 0x10, 0x11, 0x12, 0x13, 0x18, 0x19, 0x1C, 0x20, 0x40, 0x41, 0x42, 0x43, 0x44] :
        List Byte) →
      exec (.badCommand p v) s = .next (s.replied p v 0x10#8 0#32)) ∧
    (∀ off be, (Instr.windowWrite p off be v).wf = true →
      (be ≠ 15#4 ∨ (off ≠ 2#8 ∧ off ≠ 3#8 ∧ off ≠ 4#8) →
        exec (.windowWrite p off be v) s = .next (s.wrote p id)) ∧
      (be = 15#4 → off = 2#8 →
        exec (.windowWrite p off be v) s = .next (s.wrote p fun i => { i with carg0 := v })) ∧
      (be = 15#4 → off = 3#8 →
        exec (.windowWrite p off be v) s = .next (s.wrote p fun i => { i with carg1 := v })) ∧
      (be = 15#4 → off = 4#8 →
        exec (.windowWrite p off be v) s = .next (s.wrote p fun i => { i with carg2 := v }))) ∧
    ((s.port p).notes = [] → exec (.npop p v) s = .next (s.wrote p fun i => { i with popEmpty := true })) ∧
    (∀ x rest, (s.port p).notes = x :: rest →
      exec (.npop p v) s = .next (s.wrote p fun i => { i with notes := rest })) ∧
    exec (.fclr p v) s = .next (s.wrote p fun i => { i with fault := none }) ∧
    exec (.nmask p v) s = .next (s.wrote p fun i => { i with kindMask := v.extractLsb' 1 8 }) ∧
    exec (.lwarn p v) s = .next (s.wrote p fun i => { i with lwarn := v.extractLsb' 0 16 }) ∧
    exec (.fill p v) s = .next (s.wrote p fun i => { i with fill := v }) ∧
    (let prio : Priorities := ⟨⟨v.extractLsb' 0 4, v.extractLsb' 4 4, v.extractLsb' 8 4, v.extractLsb' 12 4⟩,
        v.extractLsb' 16 4⟩;
      (s.supervisor = some p →
        exec (.sarb p v) s = .next (State.wrote { s with initialPrio := prio, effectivePrio := prio } p id)) ∧
      (s.supervisor ≠ some p → exec (.sarb p v) s = .next (s.wrote p id)))

/-- A placement write changes its field of a disabled entry without a check, and is ignored with the
aperture-refused flag set on an enabled one, in every part state and port state (R111). -/
def Obligations.PlacementWriteTaken : Prop :=
  ∀ (s : State) (p : Port) (n : ApertureIx) (v : Word), s.takes p →
    let a := (s.port p).aperture n
    (a.enabled = false →
      exec (.aperturePlacementWrite p n .view v) s =
        .next (s.wrote p fun i => i.setAperture n { a with viewPage := v.extractLsb' 8 8 }) ∧
      exec (.aperturePlacementWrite p n .size v) s =
        .next (s.wrote p fun i => i.setAperture n { a with sizeExp := v.extractLsb' 0 4 }) ∧
      exec (.aperturePlacementWrite p n .store v) s =
        .next (s.wrote p fun i => i.setAperture n { a with storePage := v.extractLsb' 0 10 })) ∧
    (a.enabled = true → ∀ f, exec (.aperturePlacementWrite p n f v) s =
      .next (s.wrote p fun i => { i with apertureRefused := true }))

/-- An ATTR write by the entry's state and the enabled flag written, the five refusals of an enable
among its cases (R112, R113). -/
def Obligations.AttrWriteTaken : Prop :=
  ∀ (s : State) (p : Port) (n : ApertureIx) (v : Word), s.takes p →
    let a := (s.port p).aperture n
    let base := a.viewPage.toNat * 256
    let size := 256 * 2 ^ a.sizeExp.toNat
    let refused : Prop := 8 < a.sizeExp.toNat ∨ base % size ≠ 0 ∨ base < 0x400 ∨ 0x10000 < base + size ∨
      511 < a.storePage.toNat
    let flags (on : Bool) : Aperture :=
      { a with enabled := on, readOk := v.getLsbD 1, writeOk := v.getLsbD 2, posted := v.getLsbD 3 }
    let same : Prop := a.readOk = v.getLsbD 1 ∧ a.writeOk = v.getLsbD 2 ∧ a.posted = v.getLsbD 3
    (v.getLsbD 0 = false → exec (.attrWrite p n v) s = .next (s.wrote p fun i => i.setAperture n (flags false))) ∧
    (v.getLsbD 0 = true → a.enabled = false → ¬ refused →
      exec (.attrWrite p n v) s = .next (s.wrote p fun i => i.setAperture n (flags true))) ∧
    (v.getLsbD 0 = true → a.enabled = false → refused →
      exec (.attrWrite p n v) s = .next (s.wrote p fun i => { i with apertureRefused := true })) ∧
    (v.getLsbD 0 = true → a.enabled = true → same → exec (.attrWrite p n v) s = .next (s.wrote p id)) ∧
    (v.getLsbD 0 = true → a.enabled = true → ¬ same →
      exec (.attrWrite p n v) s = .next (s.wrote p fun i => { i with apertureRefused := true }))

/-- A PSTAT read returns the eight fields of 11.3, every other bit 0, and clears the pop-empty and
aperture-refused flags (R176, 11.3). -/
def Obligations.PstatReadFields : Prop :=
  ∀ (s : State) (p : Port), s.takes p → (s.port p).posted.length ≤ 8 → (s.port p).notes.length ≤ 16 →
    let i := s.port p
    ∃ w, exec (.pstatRead p) s =
        .next (s.updPort p fun i => { i with bus := .read w, popEmpty := false, apertureRefused := false }) ∧
      w.getLsbD 0 = decide (i.state = .attached) ∧ w.getLsbD 1 = decide (s.supervisor = some p) ∧
      w.getLsbD 2 = decide (s.part = .ready) ∧ w.getLsbD 3 = i.fault.isSome ∧ w.getLsbD 4 = i.popEmpty ∧
      w.getLsbD 5 = i.apertureRefused ∧ w.extractLsb' 6 2 = 0#2 ∧
      (w.extractLsb' 8 4).toNat = i.posted.length ∧ w.extractLsb' 12 4 = 0#4 ∧
      (w.extractLsb' 16 5).toNat = i.notes.length ∧ w.extractLsb' 21 11 = 0#11

/-- What every window read returns, by byte offset: PSTAT's word (the one a PSTAT_READ puts on the bus), the
command and argument registers, the head record in its kind's layout or 0 when the queue is empty, the
masks and the fill word, the fault record or 0 when it is empty, the aperture words, the four words of a
region view entry (0 for an UNDEFINED slot), SARB, and 0 at every other offset and, CMD apart, in every bit
that has no field (R18, R110, R148, R174 to R178, 11.1, 11.6 to 11.10). That CMD reads back all 32 bits as
written, bits 15:13, 19:18 and 31:22 among them, is the model's reading of R175 beside R174 (log entry 9); that
a window read is a function of the state and no command of the queue is the table's doing (log entry 8). -/
def Obligations.RegionViewReads : Prop :=
  ∀ (s : State) (p : Port),
    let i := s.port p
    let read : Nat → Word := fun offset => s.windowRead p (BitVec.ofNat 8 (offset / 4))
    let kindCode : FaultKind → BitVec 4 := fun k => match k with
      | .notReady => 1#4 | .unmapped => 2#4 | .beyondStore => 3#4 | .apertureNoRead => 4#4
      | .apertureNoWrite => 5#4 | .readDenied => 6#4 | .writeDenied => 7#4 | .privateDenied => 8#4
    let head : BitVec 4 → Nat → BitVec 2 → Bool → BitVec 2 → BitVec 4 → Word := fun kind r mode taint reason fault =>
      0#4 ++ fault ++ 0#2 ++ reason ++ 0#1 ++ BitVec.ofBool taint ++ mode ++ 0#3 ++ BitVec.ofNat 5 r ++ 0#4 ++ kind
    let heads : Record → List Word := fun x => match x with
      | .granted r m g tainted =>
        [head 1#4 r.val (if m = .exclusive then 1#2 else 0#2) tainted 0#2 0#4, g.zeroExtend 32, 0#32, 0#32]
      | .revoked r h why => [head 2#4 r.val (match h with | .shared => 0#2 | .exclusive => 1#2 | .proprietor => 2#2)
          false (match why with | .lease => 1#2 | .reclaim => 2#2) 0#4, 0#32, 0#32, 0#32]
      | .dropped r => [head 3#4 r.val 0#2 false 2#2 0#4, 0#32, 0#32, 0#32]
      | .leaseWarning r n => [head 4#4 r.val 0#2 false 0#2 0#4, n.zeroExtend 32, 0#32, 0#32]
      | .digestDone r g v => [head 5#4 r.val 0#2 false 0#2 0#4, g.zeroExtend 32, v, 0#32]
      | .wipeDone r g => [head 6#4 r.val 0#2 false 0#2 0#4, g.zeroExtend 32, 0#32, 0#32]
      | .fault k => [head 7#4 0 0#2 false 0#2 (kindCode k), 0#32, 0#32, 0#32]
      | .message q v => [head 8#4 0 0#2 false 0#2 0#4, q.bits.zeroExtend 32, v, 0#32]
      | .overflow n => [head 15#4 0 0#2 false 0#2 0#4, n.zeroExtend 32, 0#32, 0#32]
    (s.takes p → exec (.pstatRead p) s = .next (s.updPort p fun i =>
      { i with bus := .read (read 0x000), popEmpty := false, apertureRefused := false })) ∧
    [0x004, 0x008, 0x00C, 0x010, 0x014, 0x018].map read =
      [i.cmd, i.carg0, i.carg1, i.carg2, i.cres.zeroExtend 32, i.cresv] ∧
    (i.notes = [] → [0x020, 0x024, 0x028, 0x02C].map read = [0#32, 0#32, 0#32, 0#32]) ∧
    (∀ x rest, i.notes = x :: rest → [0x020, 0x024, 0x028, 0x02C].map read = heads x) ∧
    [0x034, 0x038, 0x03C].map read = [0#23 ++ i.kindMask ++ 0#1, i.lwarn.zeroExtend 32, i.fill] ∧
    (i.fault = none → [0x040, 0x044, 0x048, 0x04C].map read = [0#32, 0#32, 0#32, 0#32]) ∧
    (∀ f, i.fault = some f → [0x040, 0x044, 0x048, 0x04C].map read =
      [0#8 ++ f.count ++ 0#3 ++ BitVec.ofNat 5 (f.region.elim 0 Fin.val) ++ 0#1 ++ BitVec.ofBool f.region.isSome ++
        BitVec.ofBool f.storeAddr.isSome ++ BitVec.ofBool (decide (f.dir = .write)) ++ kindCode f.kind,
        f.viewAddr.zeroExtend 32, (f.storeAddr.getD 0#18).zeroExtend 32, 0#32]) ∧
    (∀ n : ApertureIx, let a := i.aperture n
      [0x080, 0x084, 0x088, 0x08C].map (fun o => read (o + 16 * n.val)) =
        [0#16 ++ a.viewPage ++ 0#8, a.sizeExp.zeroExtend 32, a.storePage.zeroExtend 32,
          0#28 ++ BitVec.ofBool a.posted ++ BitVec.ofBool a.writeOk ++ BitVec.ofBool a.readOk ++ BitVec.ofBool a.enabled]) ∧
    (let v := s.initialPrio; read 0x300 = 0#12 ++ v.engine ++ v.ports.p3 ++ v.ports.p2 ++ v.ports.p1 ++ v.ports.p0) ∧
    (∀ o, o = 0x01C ∨ o = 0x030 ∨ (0x050 ≤ o ∧ o ≤ 0x07C) ∨ (0x304 ≤ o ∧ o ≤ 0x3FC) → read o = 0#32) ∧
    ∀ r : RegionIx, let word : Nat → Word := fun k => read (0x100 + 16 * r.val + 4 * k)
    (s.slot r = none → ∀ k, k < 4 → word k = 0#32) ∧
    ∀ g, s.slot r = some g → g.queue.length ≤ 4 →
      ((word 0).extractLsb' 0 3).toNat = (match g.state with
        | .free => 1 | .shared => 2 | .exclusive => 3 | .draining _ => 4 | .ownedBy _ => 5 | .wiping => 6) ∧
      (word 0).getLsbD 3 = false ∧
      (∀ q, (word 0).getLsbD (4 + q.bits.toNat) = (g.holders.get q).isSome) ∧
      ((word 0).getLsbD 8 = true ↔ ∃ q h, g.holders.get q = some h ∧ h.mode = .exclusive) ∧
      (word 0).extractLsb' 9 3 = 0#3 ∧ ((word 0).extractLsb' 12 3).toNat = g.queue.length ∧
      (word 0).getLsbD 15 = false ∧
      (∀ q, g.state = .ownedBy q → (word 0).extractLsb' 16 2 = q.bits) ∧
      ((∀ q, g.state ≠ .ownedBy q) → (word 0).extractLsb' 16 2 = 0#2) ∧
      (word 0).extractLsb' 18 2 = 0#2 ∧ (word 0).getLsbD 20 = g.taint ∧ (word 0).extractLsb' 21 3 = 0#3 ∧
      ((word 0).extractLsb' 24 3).toNat = (match g.job with
        | none => 0 | some ⟨.digest, false, _⟩ => 1 | some ⟨.digest, true, _⟩ => 2
        | some ⟨.wipe, false, _⟩ => 3 | some ⟨.wipe, true, _⟩ => 4) ∧
      (word 0).extractLsb' 27 5 = 0#5 ∧ word 1 = g.generation.zeroExtend 32 ∧
      (g.digest = none → word 2 = 0#32 ∧ word 3 = 0#32) ∧
      ∀ d, g.digest = some d → word 2 = 0x80000000#32 ||| d.tag.zeroExtend 32 ∧ word 3 = d.value

/-! ### Views, the access check and the write path (chapters 7, 8, 9) -/

/-- The view decoder: its checks in order, with the lowest-numbered matching entry and the translated
address (R115 to R117). -/
def Obligations.ViewDecoded : Prop :=
  ∀ (s : State) (p : Port) (dir : Direction) (a : BusAddr),
    let A := 4 * a.toNat
    let hit : ApertureIx → Prop := fun n =>
      let e := (s.port p).aperture n
      e.enabled = true ∧ e.viewPage.toNat * 256 ≤ A ∧ A < e.viewPage.toNat * 256 + 256 * 2 ^ e.sizeExp.toNat
    (s.part = .starting → s.decodeView p dir a = .fails .notReady none) ∧
    (s.part = .ready → (∀ n, ¬ hit n) → s.decodeView p dir a = .fails .unmapped none) ∧
    ∀ n, s.part = .ready → hit n → (∀ m, m < n → ¬ hit m) →
      let e := (s.port p).aperture n
      let T := e.storePage.toNat * 256 + (A - e.viewPage.toNat * 256)
      (0x20000 ≤ T → s.decodeView p dir a = .fails .beyondStore (some (BitVec.ofNat 18 T))) ∧
      (T < 0x20000 → dir = .read → e.readOk = false →
        s.decodeView p dir a = .fails .apertureNoRead (some (BitVec.ofNat 18 T))) ∧
      (T < 0x20000 → dir = .write → e.writeOk = false →
        s.decodeView p dir a = .fails .apertureNoWrite (some (BitVec.ofNat 18 T))) ∧
      (T < 0x20000 → (dir = .read ∧ e.readOk = true) ∨ (dir = .write ∧ e.writeOk = true) →
        s.decodeView p dir a = .passes (BitVec.ofNat 15 (T / 4)) e.posted)

/-- A view access that fails, at the decoder or at the access check, completes at once with the fill word
or is dropped, and is recorded or counted in the fault record with its FAULT record; the store, the region
table and the write path are as they were. The record's region is that of the store address: absent without
an address, at 20000h and above, and in open store (R117, R121, R123, R128, R156, R157). -/
def Obligations.ViewAccessFails : Prop :=
  (∀ s : State, s.extentsLaw → s.faultRegion none = none ∧ ∀ b : BitVec 18,
    (0x20000 ≤ b.toNat → s.faultRegion (some b) = none) ∧
    (b.toNat < 0x20000 → ∀ r, s.faultRegion (some b) = some r ↔
      ∃ g, s.slot r = some g ∧ g.extent.hasPage (b.toNat / 256) = true)) ∧
  ∀ (s : State) (p : Port) (a : BusAddr) (be : Enables) (v : Word) (k : FaultKind) (at_ : Option (BitVec 18)),
    s.takes p → Config.viewStart ≤ a.toNat →
    let record : Direction → FaultRecord := fun dir => ⟨k, dir, viewByte a, at_, s.faultRegion at_, 1#8⟩
    (s.decodeView p .read a = .fails k at_ ∨ (∃ w posted, s.decodeView p .read a = .passes w posted ∧
        s.check p .read w = some k ∧ at_ = some (faultAddr w)) →
      exec (.viewRead p a) s =
        .next (s.updPort p fun i => i.failed (record .read) (.read i.fill))) ∧
    (be ≠ 0#4 → s.decodeView p .write a = .fails k at_ ∨
        (∃ w posted, s.decodeView p .write a = .passes w posted ∧ s.check p .write w = some k ∧
          at_ = some (faultAddr w) ∧ (posted = true → (s.port p).posted.length < 8)) →
      exec (.viewWrite p a be v) s =
        .next (s.updPort p fun i => i.failed (record .write) .wrote))

/-- A view access that passes: a read and a non-posted write become the blocking access, a posted write
joins the queue's tail and completes, or is held unchecked behind a full queue; a write without an
enable is nothing but its completion (R108, R118, R123, R128 to R130). -/
def Obligations.ViewAccessAccepted : Prop :=
  ∀ (s : State) (p : Port) (a : BusAddr) (be : Enables) (v : Word) (w : StoreAddr),
    s.takes p → Config.viewStart ≤ a.toNat →
    (∀ posted, s.decodeView p .read a = .passes w posted → s.check p .read w = none →
      exec (.viewRead p a) s = .next (s.updPort p fun i => { i with blocking := some (.read w) })) ∧
    (be = 0#4 → exec (.viewWrite p a be v) s = .next (s.wrote p id)) ∧
    (be ≠ 0#4 → s.decodeView p .write a = .passes w true → (s.port p).posted.length < 8 →
      s.check p .write w = none →
      exec (.viewWrite p a be v) s =
        .next ((s.noteWrite p w).wrote p fun i => { i with posted := i.posted ++ [⟨w, v, be⟩] })) ∧
    (be ≠ 0#4 → s.decodeView p .write a = .passes w true → 8 ≤ (s.port p).posted.length →
      exec (.viewWrite p a be v) s =
        .next (s.updPort p fun i => { i with held := some ⟨viewByte a, w, v, be⟩ })) ∧
    (be ≠ 0#4 → s.decodeView p .write a = .passes w false → s.check p .write w = none →
      exec (.viewWrite p a be v) s =
        .next ((s.noteWrite p w).updPort p fun i => { i with blocking := some (.write ⟨w, v, be⟩) }))

/-- The wrote flag at the acceptance of a write: set in the issuing port's EXCLUSIVE hold on the write's
region, and nothing else changes; none is set in open store, for a proprietor or without such a hold
(R21). -/
def Obligations.AcceptedWriteSetsWroteFlag : Prop :=
  ∀ (s : State) (p : Port) (w : StoreAddr),
    (∀ r g h, s.regionOf w = some r → s.slot r = some g → (∀ q, g.state ≠ .ownedBy q) →
      g.holders.get p = some h → h.mode = .exclusive →
      s.noteWrite p w = s.setSlot r (some { g with holders := g.holders.set p (some { h with wrote := true }) })) ∧
    (s.regionOf w = none → s.noteWrite p w = s) ∧
    (∀ r g, s.regionOf w = some r → s.slot r = some g →
      ((∃ q, g.state = .ownedBy q) ∨ (g.holders.get p).map Hold.mode ≠ some .exclusive) → s.noteWrite p w = s)

/-- The region of a store word is the one whose extent holds its page, and the access check answers by
that region's state and the port's standing in it (R3, R124). -/
def Obligations.AccessCheckTable : Prop :=
  ∀ (s : State) (p : Port) (dir : Direction) (w : StoreAddr), s.extentsLaw →
    let denied : FaultKind := match dir with | .read => .readDenied | .write => .writeDenied
    (∀ r, s.regionOf w = some r ↔ ∃ g, s.slot r = some g ∧ g.extent.hasPage (w.toNat / 64) = true) ∧
    ((∀ r g, s.slot r = some g → g.extent.hasPage (w.toNat / 64) = false) → s.check p dir w = none) ∧
    ∀ r g, s.slot r = some g → g.extent.hasPage (w.toNat / 64) = true →
      (g.state = .ownedBy p → s.check p dir w = none) ∧
      (∀ q, g.state = .ownedBy q → q ≠ p → s.check p dir w = some .privateDenied) ∧
      (g.state = .wiping → s.check p dir w = some denied) ∧
      (g.state ≠ .wiping → (∀ q, g.state ≠ .ownedBy q) →
        (∀ h, g.holders.get p = some h → h.mode = .exclusive → s.check p dir w = none) ∧
        (∀ h, g.holders.get p = some h → h.mode = .shared →
          s.check p dir w = if dir = .read then none else some .writeDenied) ∧
        (g.holders.get p = none →
          s.check p dir w = if dir = .read ∧ g.attrs.openRead = true then none else some denied))

/-- The landing of a posted head in a slot the arbiter gives the port: its enabled lanes are stored and
no other byte changes, it leaves the queue, the port's marks are counted down and those that reach 0 are
reported in list order, and a held write is then taken (R1, R63, R129, R133). -/
def Obligations.PostedHeadLands : Prop :=
  ∀ (s u : State) (p : Port) (w : StoreWrite) (rest : List StoreWrite), s.store.wf = true →
    (s.port p).posted = w :: rest → s.grantSlot (.port p) = some u →
    ∃ t m, exec (.postedWriteLanding p) s = .next t ∧ t.store = m ∧
      (∀ a, m.readByte a = if a / 4 = w.addr.toNat ∧ w.be.getLsbD (a % 4) = true then
          w.data.extractLsb' (8 * (a % 4)) 8 else s.store.readByte a) ∧
      let landed : State := { u.updPort p fun i => { i with
            posted := rest
            fences := (i.fences.filter fun x => x.count ≠ 1).map fun x => { x with count := x.count - 1 } } with
          store := m
          completions := s.completions ++ ((s.port p).fences.filter fun x => x.count = 1).map fun x => (p, x.region) }
      ((s.port p).held = none → t = landed) ∧
      ((s.port p).held.isSome = true → exec (.postedWriteAccept p) landed = .next t)

/-- A blocking write lands, or a blocking read returns its word, in a slot given to a port whose posted
queue is empty; the bus access completes (R1, R63, R130, R133). -/
def Obligations.BlockingAccessPerformed : Prop :=
  ∀ (s u : State) (p : Port), s.store.wf = true → (s.port p).posted = [] → s.grantSlot (.port p) = some u →
    (∀ w, (s.port p).blocking = some (.write w) →
      ∃ t m, exec (.blockingWriteLanding p) s = .next t ∧
        (∀ a, m.readByte a = if a / 4 = w.addr.toNat ∧ w.be.getLsbD (a % 4) = true then
          w.data.extractLsb' (8 * (a % 4)) 8 else s.store.readByte a) ∧
        t = { u.updPort p fun i => { i with
              blocking := none
              bus := .wrote
              fences := (i.fences.filter fun x => x.count ≠ 1).map fun x => { x with count := x.count - 1 } } with
            store := m
            completions := s.completions ++ ((s.port p).fences.filter fun x => x.count = 1).map fun x => (p, x.region) }) ∧
    (∀ w, (s.port p).blocking = some (.read w) →
      exec (.blockingReadSlot p) s =
        .next (u.updPort p fun i => { i with
          blocking := none
          bus := .read (s.store.readByte (4 * w.toNat + 3) ++ s.store.readByte (4 * w.toNat + 2) ++
            s.store.readByte (4 * w.toNat + 1) ++ s.store.readByte (4 * w.toNat)) }))

/-- A posted write held on the bus, once a place is free: checked against the region as it then stands,
and accepted at the tail or dropped with its fault; while the queue is full it waits (R129). That this
check is also a command of its own is the table's row; the landing's event makes it first (log entry 4). -/
def Obligations.HeldWriteTaken : Prop :=
  ∀ (s : State) (p : Port) (h : HeldWrite), (s.port p).held = some h →
    (8 ≤ (s.port p).posted.length → exec (.postedWriteAccept p) s = .next s) ∧
    ((s.port p).posted.length < 8 → s.check p .write h.write.addr = none →
      exec (.postedWriteAccept p) s =
        .next ((s.noteWrite p h.write.addr).wrote p fun i =>
          { i with held := none, posted := i.posted ++ [h.write] })) ∧
    (∀ k, (s.port p).posted.length < 8 → s.check p .write h.write.addr = some k →
      exec (.postedWriteAccept p) s =
        .next (s.updPort p fun i => { i with held := none }.failed
          ⟨k, .write, h.viewAddr, some (BitVec.ofNat 18 (4 * h.write.addr.toNat)), s.regionOf h.write.addr, 1#8⟩ .wrote))

/-- The arbiter gives the slot to the waiting client of lowest effective priority, of lowest number on a
tie; the granted client's priority returns to its initial one, every other waiting client improves by one
down to 0, and a client that does not wait keeps its own (R137, R139). -/
def Obligations.ArbiterGrants : Prop :=
  ∀ (s : State) (g : Client),
    let number : Client → Nat := fun c => match c with | .port q => q.bits.toNat | .engine => 4
    let waits : Client → Prop := fun c => match c with
      | .port q => (s.port q).posted ≠ [] ∨ (s.port q).blocking ≠ none
      | .engine => (s.part = .starting ∧ s.rstLow = false) ∨ s.current ≠ none
    let prio : Client → Nat := fun c => (s.effectivePrio.of c).toNat
    ((∃ t, s.grantSlot g = some t) ↔
      waits g ∧ ∀ c, waits c → prio g < prio c ∨ (prio g = prio c ∧ number g ≤ number c)) ∧
    ∀ t, s.grantSlot g = some t →
      t = { s with effectivePrio := t.effectivePrio } ∧
      t.effectivePrio.of g = s.initialPrio.of g ∧
      (∀ c, c ≠ g → waits c → (t.effectivePrio.of c).toNat = prio c - 1) ∧
      ∀ c, c ≠ g → ¬ waits c → t.effectivePrio.of c = s.effectivePrio.of c

/-! ### Fences, drains and grants (chapters 2, 4) -/

/-- A port interface takes a fence request: completed at once with no write in its path, otherwise a mark
with the count of its posted entries and its blocking write; the port's state does not matter (R62). -/
def Obligations.FenceRequestTaken : Prop :=
  ∀ (s : State) (p : Port) (r : RegionIx), (p, r) ∈ s.fenceRequests →
    let n := (s.port p).posted.length + (match (s.port p).blocking with | some (.write _) => 1 | _ => 0)
    (n = 0 → exec (.fenceRequest p r) s =
      .next { s with fenceRequests := s.fenceRequests.erase (p, r), completions := s.completions ++ [(p, r)] }) ∧
    (n ≠ 0 → exec (.fenceRequest p r) s =
      .next (State.updPort { s with fenceRequests := s.fenceRequests.erase (p, r) } p fun i =>
        { i with fences := i.fences ++ [⟨r, n⟩] }))

/-- The lock engine takes a fence completion: an awaited port leaves the set and the end of the drain is
decided, the drain going on while another port is awaited or, for RECLAIM, a job is attached; in every other
case it has no effect (R65, R67). -/
def Obligations.FenceCompletionTaken : Prop :=
  ∀ (s : State) (p : Port) (r : RegionIx), (p, r) ∈ s.completions →
    let t : State := { s with completions := s.completions.erase (p, r) }
    (∀ g d, s.slot r = some g → g.state = .draining d → d.awaited.get p = true →
      let lowered : State := t.setSlot r (some { g with state := .draining ⟨d.reason, d.awaited.set p false⟩ })
      (∃ u, exec (.fenceCompletion p r) s = .next u ∧ exec (.drainEnd r) lowered = .next u) ∧
      ((∃ q, q ≠ p ∧ d.awaited.get q = true) ∨ ((∃ q, d.reason = .reclaim q) ∧ g.job ≠ none) →
        exec (.fenceCompletion p r) s = .next lowered)) ∧
    ((∀ g d, s.slot r = some g → g.state = .draining d → d.awaited.get p = false) →
      exec (.fenceCompletion p r) s = .next t)

/-- The end of a drain, by its reason: the settle of an ended hold with its generation, digest, taint and
automatic DIGEST job, the opening of a defined region, or the WIPE job, the job field queued with each job and
an IDLE engine's job in progress at once; it does not end while a fence is awaited or, for RECLAIM, a job is
attached (R67, R68, R70, R93, R94, 12.6, 12.8). That the job's start stands reported until JOB_START takes it is
log entry 13; that an IDLE engine whose queue is not empty, which no run has, starts nothing here is log entry
18. That the end of a drain is also a command of its own is the table's row; the event that empties the awaited
set makes it first, so no run leaves one due (log entry 4). -/
def Obligations.DrainEnds : Prop :=
  ∀ (s : State) (r : RegionIx) (g : Region) (d : Drain), s.slot r = some g → g.state = .draining d →
    ((∃ p, d.awaited.get p = true) ∨ ((∃ q, d.reason = .reclaim q) ∧ g.job ≠ none) →
      exec (.drainEnd r) s = .next s) ∧
    ((∀ p, d.awaited.get p = false) →
      (∀ e, d.reason = .release e →
        let settled : Region := { g with
          state := .free
          generation := if e.wrote then g.generation + 1#16 else g.generation
          digest := if e.wrote then none else g.digest
          taint := if e.revoked then (e.wrote || g.taint) else false }
        exec (.drainEnd r) s = .next (State.grantPass (if e.wrote && g.attrs.digestOnRelease then
            s.withJob r settled .digest none else s.setSlot r (some settled)) r)) ∧
      (d.reason = .define → exec (.drainEnd r) s =
        .next ((s.setSlot r (some { g with
          state := .free, generation := 0#16, digest := none, taint := false })).grantPass r)) ∧
      ∀ q, d.reason = .relinquish q ∨ (d.reason = .reclaim q ∧ g.job = none) → exec (.drainEnd r) s =
        .next (s.withJob r { g with state := .wiping } .wipe (some q)))

/-- The grant pass: the run it grants from the front of the queue, the holds it creates, the state it
leaves, one GRANTED record to each granted port, and nothing else (R31, R32). -/
def Obligations.GrantPassGrants : Prop :=
  ∀ (s : State) (r : RegionIx) (g : Region), s.slot r = some g → (g.queue.map WaitEntry.port).Nodup →
    ∃ run rest, g.queue = run ++ rest ∧
      ((g.state = .free ∨ g.state = .shared) → (∃ e es, g.queue = e :: es ∧ e.mode = .shared) →
        run ≠ [] ∧ (∀ e ∈ run, e.mode = .shared) ∧ ∀ e es, rest = e :: es → e.mode = .exclusive) ∧
      (∀ e es, g.state = .free → g.queue = e :: es → e.mode = .exclusive → g.job = none → run = [e]) ∧
      ((g.queue = [] ∨ (g.state ≠ .free ∧ g.state ≠ .shared) ∨
          (∃ e es, g.queue = e :: es ∧ e.mode = .exclusive ∧ (g.state = .shared ∨ g.job ≠ none))) → run = []) ∧
      ∃ h, (s.grantPass r).slot r = some h ∧
        h = { g with queue := rest, holders := h.holders, state := h.state } ∧
        (∀ e ∈ run, h.holders.get e.port = some ⟨e.mode,
          if g.attrs.lease = 0#16 then none else some g.attrs.lease, false, false⟩) ∧
        (∀ p, (∀ e ∈ run, e.port ≠ p) → h.holders.get p = g.holders.get p) ∧
        (run = [] → h.state = g.state) ∧
        (∀ e ∈ run, h.state = if e.mode = .exclusive then .exclusive else .shared) ∧
        (∀ e ∈ run, (s.grantPass r).port e.port = { s.port e.port with
          notes := if (s.port e.port).state = .attached then
              appendDevice (s.port e.port).notes (.granted r e.mode g.generation g.taint)
            else (s.port e.port).notes }) ∧
        (∀ p, (∀ e ∈ run, e.port ≠ p) → (s.grantPass r).port p = s.port p) ∧
        s.grantPass r = { s with
          slots := (s.setSlot r (some h)).slots, ports := (s.grantPass r).ports }

/-! ### The sweep engine (chapter 6) -/

/-- JOB_START: the lock engine takes the oldest start reported and the region's job field becomes running; an
IDLE engine with a job queued, which no run has (log entry 18), takes the head in progress first, and with no
start to take nothing happens (log entry 3). Each word of a WIPE stores zero in all four lanes and no other
byte, each word of a DIGEST only feeds the CRC; with the extent's last word the completion is reported and the
next head is in progress in the same event, or the engine is IDLE (R10, R93 to R96, R98). That the start of
that next job is taken in the same event where no older start stands before it, and otherwise by JOB_START, is
the model's reading of 6.8, 12.6 and R95 (log entry 13). -/
def Obligations.JobCarriedOut : Prop :=
  ∀ s : State,
    let begins : State → Job → List Job → Region → State := fun u j rest g =>
      { u with jobQueue := rest, current := some ⟨j, g.extent, 0, 0xFFFFFFFF#32⟩, starts := u.starts ++ [j.region] }
    let taken : State → RegionIx → List RegionIx → Region → State := fun u r rest g =>
      { u.setSlot r (some { g with job := g.job.map fun m => { m with running := true } }) with starts := rest }
    (s.engineLaw →
      (∀ r rest g, s.starts = r :: rest → s.slot r = some g → exec .jobStart s = .next (taken s r rest g)) ∧
      (s.starts = [] → exec .jobStart s = .next s)) ∧
    (∀ j rest g, s.part = .ready → s.current = none → s.jobQueue = j :: rest → s.slot j.region = some g →
      exec .jobStart s = exec .jobStart (begins s j rest g)) ∧
    (∀ x u, s.store.wf = true → s.current = some x → s.grantSlot .engine = some u →
      x.extent.base * 64 + x.done < 32768 →
      let n := x.extent.base * 64 + x.done
      let word := s.store.readByte (4 * n + 3) ++ s.store.readByte (4 * n + 2) ++ s.store.readByte (4 * n + 1) ++
        s.store.readByte (4 * n)
      let ends : Instr → State → Prop := fun c v =>
        (s.jobQueue = [] → exec c s = .next v) ∧
        ∀ j rest g, s.part = .ready → s.jobQueue = j :: rest → s.slot j.region = some g →
          (s.starts = [] → exec c s = .next (taken (begins v j rest g) j.region [] g)) ∧
          (s.starts ≠ [] → exec c s = .next (begins v j rest g))
      (x.job.kind = .wipe → ∃ m, (∀ a, m.readByte a = if a / 4 = n then 0#8 else s.store.readByte a) ∧
        (x.done + 1 < x.extent.count * 64 →
          exec .wipeWord s = .next { u with store := m, current := some { x with done := x.done + 1 } }) ∧
        (x.extent.count * 64 ≤ x.done + 1 →
          ends .wipeWord { u with store := m, current := none, reports := s.reports ++ [.wipe x.job.region] })) ∧
      (x.job.kind = .digest →
        (x.done + 1 < x.extent.count * 64 →
          exec .digestWord s = .next { u with
            current := some { x with done := x.done + 1, crc := crcWord x.crc word } }) ∧
        (x.extent.count * 64 ≤ x.done + 1 →
          ends .digestWord { u with
            current := none, reports := s.reports ++ [.digest x.job.region (~~~ crcWord x.crc word)] })))

/-- The start-up sweep writes zero to the words of its list, extent by extent in ascending order, one word
a slot, and the part is READY with the last one; the change to READY by itself is the table's row (log entry
4), and the list and its count are emptied with it (log entry 20) (R104 to R106). -/
def Obligations.StartupSweep : Prop :=
  ∀ s : State, s.part = .starting → s.rstLow = false →
    let words := s.wipeList.flatMap fun e => (List.range (e.count * 64)).map fun i => e.base * 64 + i
    (∀ n u, s.store.wf = true → words[s.swept]? = some n → n < 32768 → s.grantSlot .engine = some u →
      ∃ m, (∀ a, m.readByte a = if a / 4 = n then 0#8 else s.store.readByte a) ∧
        (s.swept + 1 < words.length →
          exec .sweepWord s = .next { u with store := m, swept := s.swept + 1 }) ∧
        (words.length ≤ s.swept + 1 →
          exec .sweepWord s = .next { u with store := m, part := .ready, wipeList := [], swept := 0 })) ∧
    (words.length ≤ s.swept →
      exec .startupSweepEnd s = .next { s with part := .ready, wipeList := [], swept := 0 }) ∧
    (s.swept < words.length → exec .startupSweepEnd s = .next s)

/-- The completion of a WIPE, in the order of its six changes, once the start of the job has been taken (R95,
R97); while that start stands, the row does nothing (log entries 3 and 13). -/
def Obligations.WipeCompletionTaken : Prop :=
  ∀ (s : State) (r : RegionIx) (rest : List Report) (g : Region) (b : Bool) (q : Option Port),
    s.reports = .wipe r :: rest → s.slot r = some g → g.job = some ⟨.wipe, b, q⟩ →
    (r ∈ s.starts → exec (.wipeCompletion r) s = .next s) ∧ (r ∉ s.starts →
    let freed : State := State.setSlot { s with reports := rest } r (some { g with
      generation := g.generation + 1#16, digest := none, taint := false, job := none, state := .free })
    (q = none → exec (.wipeCompletion r) s = .next (freed.grantPass r)) ∧
    (∀ p, q = some p → (s.port p).state = .attached → exec (.wipeCompletion r) s =
      .next ((freed.updPort p fun i => { i with
        notes := appendDevice i.notes (.wipeDone r (g.generation + 1#16)) }).grantPass r)) ∧
    (∀ p, q = some p → (s.port p).state = .detached →
      exec (.wipeCompletion r) s = .next (freed.grantPass r)))

/-- The completion of a DIGEST, in the order of its changes, once the start of the job has been taken, and
under reason RECLAIM the decision on the end of the drain (R74, R95, R100, R102); while that start stands, the
row does nothing (log entries 3 and 13). -/
def Obligations.DigestCompletionTaken : Prop :=
  ∀ (s : State) (r : RegionIx) (v : Word) (rest : List Report) (g : Region) (b : Bool) (q : Option Port),
    s.reports = .digest r v :: rest → s.slot r = some g → g.job = some ⟨.digest, b, q⟩ →
    (r ∈ s.starts → exec (.digestCompletion r) s = .next s) ∧ (r ∉ s.starts →
    let tagged : State := State.setSlot { s with reports := rest } r (some { g with
      digest := some ⟨v, g.generation⟩, job := none })
    let told : State := match q with
      | none => tagged
      | some p => if (s.port p).state = .attached then
          tagged.updPort p fun i => { i with notes := appendDevice i.notes (.digestDone r g.generation v) }
        else tagged
    ((∀ d x, g.state = .draining d → d.reason ≠ .reclaim x) →
      exec (.digestCompletion r) s = .next (told.grantPass r)) ∧
    (∀ d x, g.state = .draining d → d.reason = .reclaim x →
      exec (.digestCompletion r) s = exec (.drainEnd r) told))

/-- The CRC: the register starts at FFFFFFFFh, takes the word's four bytes lane 0 first and each byte's
least significant bit first, with the shift and exclusive OR of R99, and is complemented (R99). -/
def Obligations.CrcOfDigest : Prop :=
  let bit : Word → Bool → Word := fun reg b =>
    if (reg.getLsbD 0 != b) = true then (reg >>> 1) ^^^ 0xEDB88320#32 else reg >>> 1
  let bits : Word → List Bool := fun w =>
    [0, 1, 2, 3].flatMap fun l => (List.range 8).map fun i => (w.extractLsb' (8 * l) 8).getLsbD i
  crcStart = 0xFFFFFFFF#32 ∧ (∀ reg, crcValue reg = ~~~ reg) ∧
    ∀ reg w, crcWord reg w = (bits w).foldl bit reg

/-! ### Leases (chapter 3) -/

/-- A tick in a lawful state, whole: every count goes down by one, with the warned flag set where it comes
down on the port's threshold; a hold whose count comes to 0 ends, an EXCLUSIVE one draining as revoked with a
fence request, and a region that lost a hold has its pass; each port is offered its LEASE_WARNING, REVOKED and
GRANTED records in ascending order of region; and nothing else changes (R32, R45, R46, R49, R52 to R55). That
the divider starts again from 0 at a tick command whatever its count is the model's choice (log entry 7). So is
that a tick right after a RENEW expires a hold of lease length 1 and warns at a threshold one below the lease
length, as R46, R47 and R50 have it, where R57 says it leaves the hold without a record (log entry 23). -/
def Obligations.TickTaken : Prop :=
  ∀ s : State, s.rstLow = false → s.regionsLaw →
    ∃ t, exec .leaseTick s = .next t ∧
      t = { s with
        divider := 0, slots := t.slots, ports := t.ports
        fenceRequests := s.fenceRequests ++ (List.finRange 32).filterMap fun r =>
          (s.slot r).bind fun g => g.losesExclusive.map fun x => (x.1, r) } ∧
      (∀ r, s.slot r = none → t.slot r = none) ∧
      (∀ r g, s.slot r = some g →
        let after := g.ticked fun p => (s.port p).lwarn
        t.slot r = if g.losesHold then s.passed r after else some after) ∧
      ∀ p, t.port p = { s.port p with
        notes := appendAll (s.port p).notes ((List.finRange 32).filterMap (s.tickRecord t p)) }

/-- The records of a tick at one hold: a LEASE_WARNING with the threshold where the count comes down on
it unwarned, and no record otherwise (R49). That this is so right after a RENEW too, where R57 says that no
warning is sent, is the model's choice (log entry 23). -/
def Obligations.TickWarns : Prop :=
  ∀ (s : State) (r : RegionIx) (p : Port) (g : Region) (h : Hold) (n : Half),
    s.slot r = some g → g.holders.get p = some h → h.remaining = some n → n ≠ 0#16 →
    let down (w : Bool) : State := s.setSlot r (some { g with
      holders := g.holders.set p (some { h with remaining := some (n - 1#16), warned := w }) })
    let t := (s.port p).lwarn
    (t ≠ 0#16 → n - 1#16 = t → h.warned = false →
      s.tickHold r p = (down true).offer p (.leaseWarning r t)) ∧
    (t = 0#16 ∨ n - 1#16 ≠ t ∨ h.warned = true → s.tickHold r p = down h.warned)

/-- The expiry in one region of one port's hold at 0, the others of the region not expiring: REVOKED with
reason LEASE, then a SHARED hold removed with the pass, or an EXCLUSIVE one draining as revoked with a fence
request (R52 to R55). That the expiry is also a command of its own is the table's row (log entry 4). -/
def Obligations.ExpiryTaken : Prop :=
  ∀ (s : State) (r : RegionIx) (p : Port) (g : Region) (h : Hold), s.slot r = some g →
    g.holders.get p = some h → h.remaining = some 0#16 →
    (∀ q x, q ≠ p → g.holders.get q = some x → x.remaining ≠ some 0#16) →
    (h.mode = .shared → (∃ q, q ≠ p ∧ g.holds q) →
      exec (.leaseExpiry r) s = .next (((s.offer p (.revoked r .shared .lease)).setSlot r
        (some { g with state := .shared, holders := g.holders.set p none })).grantPass r)) ∧
    (h.mode = .shared → (∀ q, g.holds q → q = p) →
      exec (.leaseExpiry r) s = .next (((s.offer p (.revoked r .shared .lease)).setSlot r
        (some { g with state := .free, holders := g.holders.set p none })).grantPass r)) ∧
    (h.mode = .exclusive →
      exec (.leaseExpiry r) s =
        .next { (s.offer p (.revoked r .exclusive .lease)).setSlot r (some { g with
            state := .draining ⟨.release ⟨h.wrote, true⟩, onlyPort p⟩, holders := g.holders.set p none }) with
          fenceRequests := s.fenceRequests ++ [(p, r)] })

/-! ### Resets of the part, and the return of a port's bus (chapter 10) -/

/-- RST_n low, power-on and RST_n high: the region table, jobs, fences and supervisor cleared, every
interface at its reset values, the wipe list built from the table, kept while STARTING or the whole store,
and the supervisor sampled at the rise, after which the accesses that waited are taken (R19, R105 to R107,
R138, R166, R170 to R172, R179). The model's: the empty store after power-on stands for undefined contents (log
entry 1), no supervisor is held while RST_n is low (11), SUPSEL is an operand and POWER_ON leaves RST_n low
(14), a warm reset while STARTING restores the ports too (15), the waiting accesses are taken in ascending
order of port (16), the list and count are emptied at READY (20), POWER_ON keeps pins, waiting accesses, bus
and queue (21), a CMD write is overtaken that stands right behind the reset in the queue (22), and a line
already at its level does nothing (3). -/
def Obligations.PartResets : Prop :=
  ∀ s : State,
    let cleared : (Port → Option Instr) → List Extent → Memory → State := fun overtaken list m =>
      { pending := s.pending, rstLow := true, supervisor := none, divider := 0, part := .starting,
        wipeList := list, swept := 0, jobQueue := [], current := none, starts := [], reports := [],
        initialPrio := ⟨⟨4, 4, 4, 4⟩, 8⟩, effectivePrio := ⟨⟨4, 4, 4, 4⟩, 8⟩, store := m,
        slots := Vector.replicate 32 none, fenceRequests := [], completions := [],
        ports := PerPort.ofFun fun p => (s.port p).resetValues (overtaken p) }
    let overtaken : Port → Option Instr := fun p =>
      if (s.port p).resetLow = true ∨ (s.port p).busHeld = true then none
      else (s.pending.takeWhile fun c => [Port.p0, .p1, .p2, .p3].any c.writesCmd).find? fun c => c.writesCmd p
    (s.rstLow = false → s.part = .ready → ∃ list, exec .warmReset s = .next (cleared overtaken list s.store) ∧
      list.Pairwise (fun a b => a.base ≤ b.base) ∧
      list.Perm (((List.finRange 32).filterMap s.slot).filterMap fun g => match g.state with
        | .ownedBy _ => some g.extent
        | .wiping => some g.extent
        | .draining ⟨.relinquish _, _⟩ => some g.extent
        | .draining ⟨.reclaim _, _⟩ => some g.extent
        | _ => none)) ∧
    (s.rstLow = false → s.part = .starting →
      exec .warmReset s = .next (cleared overtaken s.wipeList s.store)) ∧
    (s.rstLow = true → exec .warmReset s = .next s) ∧
    exec .powerOn s = .next (cleared (fun _ => none) [⟨0, 512⟩] []) ∧
    (∀ b, s.rstLow = false → exec (.resetRelease b) s = .next s) ∧
    ∀ b, s.rstLow = true →
      let high : State := { s with rstLow := false, supervisor := some (.ofBits b) }
      let released : State → Prop := fun up =>
        ((∀ p, (s.port p).waiting = none) → exec (.resetRelease b) s = .next up) ∧
        (s.busLaw → ∃ t, exec (.resetRelease b) s = .next t ∧
          [Port.p0, .p1, .p2, .p3].foldl serveWaiting (.next up) = .next t)
      (s.part = .starting → (∀ e ∈ s.wipeList, e.count = 0) →
        released { high with part := .ready, wipeList := [], swept := 0 }) ∧
      (s.part = .starting → s.swept = 0 → (∃ e ∈ s.wipeList, e.count ≠ 0) → released high)

/-- PnRST_n high: only the pin changes, and the bus is served again unless RST_n is low; an access that
waited is then taken as one offered at that moment (R166, R171). -/
def Obligations.PortResetReleased : Prop :=
  ∀ (s : State) (p : Port), (s.port p).resetLow = true → s.busLaw →
    let up : State := s.updPort p fun i => { i with resetLow := false }
    (s.rstLow = true ∨ (s.port p).waiting = none → exec (.portResetRelease p) s = .next up) ∧
    (∀ c, s.rstLow = false → (s.port p).waiting = some c →
      exec (.portResetRelease p) s = exec c (up.updPort p fun i => { i with waiting := none }))

/-! ### Notifications (chapter 9) -/

/-- A device record offered to an ATTACHED port: counted into a marker that is present, appended to 14
records or fewer, counted into a new marker at 15; offered to a DETACHED port it is discarded (R144, R147). -/
def Obligations.DeviceRecordOffered : Prop :=
  ∀ (s : State) (p : Port) (x : Record), (s.port p).notesLaw →
    let q := (s.port p).notes
    ((s.port p).state = .detached → s.offer p x = s) ∧
    ((s.port p).state = .attached →
      (∀ before n after, q = before ++ .overflow n :: after →
        s.offer p x = s.updPort p fun i => { i with
          notes := before ++ .overflow (if n = 65535#16 then 65535#16 else n + 1#16) :: after }) ∧
      ((∀ n, Record.overflow n ∉ q) → q.length ≤ 14 →
        s.offer p x = s.updPort p fun i => { i with notes := q ++ [x] }) ∧
      ((∀ n, Record.overflow n ∉ q) → q.length = 15 →
        s.offer p x = s.updPort p fun i => { i with notes := q ++ [.overflow 1#16] }))

/-- PnINT_n is low exactly while the queue holds a marker or a record whose kind the mask enables (R152, R153). -/
def Obligations.InterruptFollowsQueue : Prop :=
  ∀ i : PortIface, i.intLow = true ↔
    ∃ x ∈ i.notes, (∃ n, x = .overflow n) ∨
      (i.kindMask.getLsbD 0 = true ∧ ∃ r m g t, x = .granted r m g t) ∨
      (i.kindMask.getLsbD 1 = true ∧ ∃ r h w, x = .revoked r h w) ∨
      (i.kindMask.getLsbD 2 = true ∧ ∃ r, x = .dropped r) ∨
      (i.kindMask.getLsbD 3 = true ∧ ∃ r t, x = .leaseWarning r t) ∨
      (i.kindMask.getLsbD 4 = true ∧ ∃ r g v, x = .digestDone r g v) ∨
      (i.kindMask.getLsbD 5 = true ∧ ∃ r g, x = .wipeDone r g) ∨
      (i.kindMask.getLsbD 6 = true ∧ ∃ k, x = .fault k) ∨
      (i.kindMask.getLsbD 7 = true ∧ ∃ q v, x = .message q v)

/-! ### The device's laws, kept by every step -/

/-- The state after reset keeps every law; its pins (log entry 2) and that it holds no supervisor (log entry
11) are the model's. -/
def Obligations.ResetIsLawful : Prop := State.reset.lawful

/-- Every step keeps the store's canonical form, which is the model's own (log entry 1). -/
def Obligations.StepKeepsStoreForm : Prop :=
  ∀ s t : State, s.store.wf = true → step s = .next t → t.store.wf = true

/-- Every step keeps the law of the notification queues (R141). -/
def Obligations.StepKeepsNotesLaw : Prop := ∀ s t : State, s.notesLaw → step s = .next t → t.notesLaw

/-- Every step keeps the extents of defined regions in the store and apart from one another, and a present
digest's tag equal to its region's generation (R4, R8, R13). -/
def Obligations.StepKeepsExtentsAndDigests : Prop :=
  ∀ s t : State, step s = .next t → (s.extentsLaw → t.extentsLaw) ∧ (s.digestLaw → t.digestLaw)

/-- Every step keeps the law of the part state, the supervisor and the divider (R45, R104, R106, R170); that no
supervisor is held while RST_n is low is the model's (log entry 11). -/
def Obligations.StepKeepsPartLaw : Prop := ∀ s t : State, s.partLaw → step s = .next t → t.partLaw

/-- Every step keeps the law of holders, waiters and jobs of every region, and leaves no DETACHED port
holding or waiting (R5, R20, R23, R160). -/
def Obligations.StepKeepsRegionsLaw : Prop := ∀ s t : State, s.regionsLaw → step s = .next t → t.regionsLaw

/-- Every step keeps the law of the write paths and of the buses: the bounds of the queue, and a lane in every
queued or held write (R108, R127, R129, R136, R166). -/
def Obligations.StepKeepsPathsLaw : Prop :=
  ∀ s t : State, s.pathsLaw → s.busLaw → step s = .next t → t.pathsLaw ∧ t.busLaw

/-- In a lawful state every step keeps each awaited fence in flight exactly once, and no other (R61); what is
in flight stands in the state by log entry 12. -/
def Obligations.StepKeepsFencesLaw : Prop := ∀ s t : State, s.lawful → step s = .next t → t.fencesLaw

/-- In a lawful state every step keeps the job fields of the regions and the sweep engine in agreement, and an
IDLE engine's queue empty (R10, R27, R93 to R95): a field reads queued while its job is in the queue or its start
stands reported, and running once that start is taken. When a start is taken is the model's reading of 6.8,
12.6 and R95 (log entry 13). -/
def Obligations.StepKeepsJobsLaw : Prop := ∀ s t : State, s.lawful → step s = .next t → t.jobsLaw

/-! ### Rules of the whole device -/

/-- A byte of the store changes only by a landing, a word of a wipe or of the sweep, or power-on: every
other command leaves the whole store as it is (R1, R2, R133, R134). -/
def Obligations.StoreChangesOnlyByLanding : Prop :=
  ∀ (c : Instr) (s t : State), exec c s = .next t →
    c = .wipeWord ∨ c = .sweepWord ∨ c = .powerOn ∨ (∃ p, c = .postedWriteLanding p) ∨
      (∃ p, c = .blockingWriteLanding p) ∨ t.store = s.store

/-- While a region stays defined in a lawful state, a step leaves its generation or advances it by one
(R7). -/
def Obligations.GenerationAdvancesByOne : Prop :=
  ∀ (s t : State) (r : RegionIx) (g h : Region), s.regionsLaw → s.partLaw → step s = .next t → s.slot r = some g →
    t.slot r = some h → h.generation = g.generation ∨ h.generation = g.generation + 1#16

/-- A host's access never reaches another port's interface but for records in its notification queue,
EVICT of that port apart (R174). -/
def Obligations.WindowsAreIsolated : Prop :=
  ∀ (s t : State) (p q : Port) (b : BusAccess) (c : Instr), encodeBus c = some (p, b) → q ≠ p →
    (∀ f, c = .evict p f → f.target ≠ q) → exec c s = .next t →
    t.port q = { s.port q with notes := (t.port q).notes }
end

