-- ==== Sys2Proof/Laws/State.lean ====
section
/-! SUPPORT. The small lemmas of the state's updates: what each update leaves of each field, and what it
puts in the field it changes. -/

namespace Sys2Proof.Machine

/-! ### Per-port collections -/

@[simp] theorem PerPort.get_set_self {α : Type} (v : PerPort α) (p : Port) (x : α) : (v.set p x).get p = x := by
  cases p <;> rfl

@[simp] theorem PerPort.get_set_of_ne {α : Type} (v : PerPort α) {p q : Port} (x : α) (h : q ≠ p) :
    (v.set p x).get q = v.get q := by
  cases p <;> cases q <;> first | rfl | exact absurd rfl h

theorem PerPort.get_set {α : Type} (v : PerPort α) (p q : Port) (x : α) :
    (v.set p x).get q = if q = p then x else v.get q := by
  by_cases h : q = p
  · subst h; simp
  · simp [h]

@[simp] theorem PerPort.get_all {α : Type} (x : α) (p : Port) : (PerPort.all x).get p = x := by cases p <;> rfl

@[simp] theorem PerPort.get_ofFun {α : Type} (f : Port → α) (p : Port) : (PerPort.ofFun f).get p = f p := by
  cases p <;> rfl

/-- Two collections with the same value for every port are equal. -/
theorem PerPort.ext_get {α : Type} {v w : PerPort α} (h : ∀ p, v.get p = w.get p) : v = w := by
  cases v; cases w
  have h0 := h .p0; have h1 := h .p1; have h2 := h .p2; have h3 := h .p3
  simp only [PerPort.get] at h0 h1 h2 h3
  subst h0 h1 h2 h3; rfl

@[simp] theorem PerPort.set_set {α : Type} (v : PerPort α) (p : Port) (x y : α) :
    (v.set p x).set p y = v.set p y := by cases p <;> rfl

@[simp] theorem PerPort.set_get {α : Type} (v : PerPort α) (p : Port) : v.set p (v.get p) = v := by
  cases p <;> rfl

theorem PerPort.set_comm {α : Type} (v : PerPort α) {p q : Port} (h : p ≠ q) (x y : α) :
    (v.set p x).set q y = (v.set q y).set p x := by
  cases p <;> cases q <;> first | rfl | exact absurd rfl h

@[simp] theorem mem_allPorts (p : Port) : p ∈ allPorts := by cases p <;> decide

@[simp] theorem mem_allRegions (r : RegionIx) : r ∈ allRegions := List.mem_finRange r

theorem allRegions_nodup : allRegions.Nodup := List.nodup_finRange 32

theorem allPorts_nodup : allPorts.Nodup := by decide

@[simp] theorem onlyPort_get (p q : Port) : (onlyPort p).get q = decide (q = p) := by
  cases p <;> cases q <;> rfl

theorem PerPort.isEmpty_iff (v : PerPort Bool) : v.isEmpty = true ↔ ∀ p, v.get p = false := by
  constructor
  · intro h p; cases p <;> simp_all [PerPort.isEmpty, PerPort.get]
  · intro h
    have h0 := h .p0; have h1 := h .p1; have h2 := h .p2; have h3 := h .p3
    simp_all [PerPort.isEmpty, PerPort.get]

/-! ### Ports and slots -/

@[simp] theorem State.port_setPort_self (s : State) (p : Port) (i : PortIface) : (s.setPort p i).port p = i :=
  PerPort.get_set_self _ _ _

@[simp] theorem State.port_setPort_of_ne (s : State) {p q : Port} (i : PortIface) (h : q ≠ p) :
    (s.setPort p i).port q = s.port q := PerPort.get_set_of_ne _ _ h

@[simp] theorem State.port_updPort_self (s : State) (p : Port) (f : PortIface → PortIface) :
    (s.updPort p f).port p = f (s.port p) := PerPort.get_set_self _ _ _

@[simp] theorem State.port_updPort_of_ne (s : State) {p q : Port} (f : PortIface → PortIface) (h : q ≠ p) :
    (s.updPort p f).port q = s.port q := PerPort.get_set_of_ne _ _ h

theorem State.port_updPort (s : State) (p q : Port) (f : PortIface → PortIface) :
    (s.updPort p f).port q = if q = p then f (s.port p) else s.port q := PerPort.get_set _ _ _ _

/-- Two changes of one port's interface are one. -/
@[simp] theorem State.updPort_updPort (s : State) (p : Port) (f g : PortIface → PortIface) :
    (s.updPort p f).updPort p g = s.updPort p fun i => g (f i) := by
  simp [State.updPort, State.setPort, State.port]

/-- Changes of two ports' interfaces commute. -/
theorem State.updPort_comm (s : State) {p q : Port} (h : p ≠ q) (f g : PortIface → PortIface) :
    (s.updPort p f).updPort q g = (s.updPort q g).updPort p f := by
  have hqp : q ≠ p := fun e => h e.symm
  simp [State.updPort, State.setPort, State.port, hqp, h, PerPort.set_comm _ h]

@[simp] theorem State.updPort_id (s : State) (p : Port) : (s.updPort p fun i => i) = s := by
  simp [State.updPort, State.setPort, State.port]

@[simp] theorem State.slot_setSlot_self (s : State) (r : RegionIx) (x : Option Region) :
    (s.setSlot r x).slot r = x := by
  simp [State.slot, State.setSlot]

@[simp] theorem State.slot_setSlot_of_ne (s : State) {r q : RegionIx} (x : Option Region) (h : q ≠ r) :
    (s.setSlot r x).slot q = s.slot q := by
  simp only [State.slot, State.setSlot, Fin.getElem_fin]
  exact Vector.getElem_set_ne _ _ (fun e => h (Fin.ext e.symm))

theorem State.slot_setSlot (s : State) (r q : RegionIx) (x : Option Region) :
    (s.setSlot r x).slot q = if q = r then x else s.slot q := by
  by_cases h : q = r
  · subst h; simp
  · simp [h]

@[simp] theorem State.setSlot_setSlot (s : State) (r : RegionIx) (x y : Option Region) :
    (s.setSlot r x).setSlot r y = s.setSlot r y := by
  simp [State.setSlot, Vector.set_set]

@[simp] theorem State.setSlot_slot (s : State) (r : RegionIx) : s.setSlot r (s.slot r) = s := by
  simp [State.setSlot, State.slot]

theorem State.slot_updRegion (s : State) (r q : RegionIx) (f : Region → Region) :
    (s.updRegion r f).slot q = if q = r then (s.slot r).map f else s.slot q := State.slot_setSlot _ _ _ _

/-- A change of a slot and a change of a port's interface commute. -/
theorem State.setSlot_updPort (s : State) (r : RegionIx) (x : Option Region) (p : Port)
    (f : PortIface → PortIface) : (s.updPort p f).setSlot r x = (s.setSlot r x).updPort p f := rfl

/-- A port's interface and a slot are each untouched by a change of the other. -/
@[simp] theorem State.port_setSlot (s : State) (r : RegionIx) (x : Option Region) (p : Port) :
    (s.setSlot r x).port p = s.port p := rfl

@[simp] theorem State.port_updRegion (s : State) (r : RegionIx) (f : Region → Region) (p : Port) :
    (s.updRegion r f).port p = s.port p := rfl

@[simp] theorem State.slot_setPort (s : State) (p : Port) (i : PortIface) (r : RegionIx) :
    (s.setPort p i).slot r = s.slot r := rfl

@[simp] theorem State.slot_updPort (s : State) (p : Port) (f : PortIface → PortIface) (r : RegionIx) :
    (s.updPort p f).slot r = s.slot r := rfl

@[simp] theorem State.slot_offer (s : State) (p : Port) (x : Record) (r : RegionIx) :
    (s.offer p x).slot r = s.slot r := rfl

@[simp] theorem State.slot_complete (s : State) (p : Port) (b : BusResult) (r : RegionIx) :
    (s.complete p b).slot r = s.slot r := rfl

@[simp] theorem State.slot_sendFence (s : State) (q r : RegionIx) (p : Port) :
    (s.sendFence q p).slot r = s.slot r := rfl

@[simp] theorem State.port_sendFence (s : State) (q : RegionIx) (p n : Port) :
    (s.sendFence q p).port n = s.port n := rfl

@[simp] theorem State.slot_reportFence (s : State) (q r : RegionIx) (p : Port) :
    (s.reportFence p q).slot r = s.slot r := rfl

@[simp] theorem State.port_reportFence (s : State) (q : RegionIx) (p n : Port) :
    (s.reportFence p q).port n = s.port n := rfl

@[simp] theorem State.slot_landWrite (s : State) (w : StoreWrite) (r : RegionIx) :
    (s.landWrite w).slot r = s.slot r := rfl

@[simp] theorem State.port_landWrite (s : State) (w : StoreWrite) (p : Port) :
    (s.landWrite w).port p = s.port p := rfl

@[simp] theorem State.fenceRequests_sendFence (s : State) (q : RegionIx) (p : Port) :
    (s.sendFence q p).fenceRequests = s.fenceRequests ++ [(p, q)] := rfl

@[simp] theorem State.completions_reportFence (s : State) (q : RegionIx) (p : Port) :
    (s.reportFence p q).completions = s.completions ++ [(p, q)] := rfl

@[simp] theorem State.store_landWrite (s : State) (w : StoreWrite) :
    (s.landWrite w).store = s.store.writeWord w.addr w.be w.data := rfl

/-! ### What each update leaves of each field -/

@[simp] theorem State.pending_setPort (s : State) (p : Port) (i : PortIface) : (s.setPort p i).pending = s.pending := rfl
@[simp] theorem State.rstLow_setPort (s : State) (p : Port) (i : PortIface) : (s.setPort p i).rstLow = s.rstLow := rfl
@[simp] theorem State.supervisor_setPort (s : State) (p : Port) (i : PortIface) : (s.setPort p i).supervisor = s.supervisor := rfl
@[simp] theorem State.divider_setPort (s : State) (p : Port) (i : PortIface) : (s.setPort p i).divider = s.divider := rfl
@[simp] theorem State.part_setPort (s : State) (p : Port) (i : PortIface) : (s.setPort p i).part = s.part := rfl
@[simp] theorem State.wipeList_setPort (s : State) (p : Port) (i : PortIface) : (s.setPort p i).wipeList = s.wipeList := rfl
@[simp] theorem State.swept_setPort (s : State) (p : Port) (i : PortIface) : (s.setPort p i).swept = s.swept := rfl
@[simp] theorem State.jobQueue_setPort (s : State) (p : Port) (i : PortIface) : (s.setPort p i).jobQueue = s.jobQueue := rfl
@[simp] theorem State.current_setPort (s : State) (p : Port) (i : PortIface) : (s.setPort p i).current = s.current := rfl
@[simp] theorem State.starts_setPort (s : State) (p : Port) (i : PortIface) : (s.setPort p i).starts = s.starts := rfl
@[simp] theorem State.reports_setPort (s : State) (p : Port) (i : PortIface) : (s.setPort p i).reports = s.reports := rfl
@[simp] theorem State.initialPrio_setPort (s : State) (p : Port) (i : PortIface) : (s.setPort p i).initialPrio = s.initialPrio := rfl
@[simp] theorem State.effectivePrio_setPort (s : State) (p : Port) (i : PortIface) : (s.setPort p i).effectivePrio = s.effectivePrio := rfl
@[simp] theorem State.store_setPort (s : State) (p : Port) (i : PortIface) : (s.setPort p i).store = s.store := rfl
@[simp] theorem State.slots_setPort (s : State) (p : Port) (i : PortIface) : (s.setPort p i).slots = s.slots := rfl
@[simp] theorem State.fenceRequests_setPort (s : State) (p : Port) (i : PortIface) : (s.setPort p i).fenceRequests = s.fenceRequests := rfl
@[simp] theorem State.completions_setPort (s : State) (p : Port) (i : PortIface) : (s.setPort p i).completions = s.completions := rfl

@[simp] theorem State.pending_updPort (s : State) (p : Port) (f : PortIface → PortIface) : (s.updPort p f).pending = s.pending := rfl
@[simp] theorem State.rstLow_updPort (s : State) (p : Port) (f : PortIface → PortIface) : (s.updPort p f).rstLow = s.rstLow := rfl
@[simp] theorem State.supervisor_updPort (s : State) (p : Port) (f : PortIface → PortIface) : (s.updPort p f).supervisor = s.supervisor := rfl
@[simp] theorem State.divider_updPort (s : State) (p : Port) (f : PortIface → PortIface) : (s.updPort p f).divider = s.divider := rfl
@[simp] theorem State.part_updPort (s : State) (p : Port) (f : PortIface → PortIface) : (s.updPort p f).part = s.part := rfl
@[simp] theorem State.wipeList_updPort (s : State) (p : Port) (f : PortIface → PortIface) : (s.updPort p f).wipeList = s.wipeList := rfl
@[simp] theorem State.swept_updPort (s : State) (p : Port) (f : PortIface → PortIface) : (s.updPort p f).swept = s.swept := rfl
@[simp] theorem State.jobQueue_updPort (s : State) (p : Port) (f : PortIface → PortIface) : (s.updPort p f).jobQueue = s.jobQueue := rfl
@[simp] theorem State.current_updPort (s : State) (p : Port) (f : PortIface → PortIface) : (s.updPort p f).current = s.current := rfl
@[simp] theorem State.starts_updPort (s : State) (p : Port) (f : PortIface → PortIface) : (s.updPort p f).starts = s.starts := rfl
@[simp] theorem State.reports_updPort (s : State) (p : Port) (f : PortIface → PortIface) : (s.updPort p f).reports = s.reports := rfl
@[simp] theorem State.initialPrio_updPort (s : State) (p : Port) (f : PortIface → PortIface) : (s.updPort p f).initialPrio = s.initialPrio := rfl
@[simp] theorem State.effectivePrio_updPort (s : State) (p : Port) (f : PortIface → PortIface) : (s.updPort p f).effectivePrio = s.effectivePrio := rfl
@[simp] theorem State.store_updPort (s : State) (p : Port) (f : PortIface → PortIface) : (s.updPort p f).store = s.store := rfl
@[simp] theorem State.slots_updPort (s : State) (p : Port) (f : PortIface → PortIface) : (s.updPort p f).slots = s.slots := rfl
@[simp] theorem State.fenceRequests_updPort (s : State) (p : Port) (f : PortIface → PortIface) : (s.updPort p f).fenceRequests = s.fenceRequests := rfl
@[simp] theorem State.completions_updPort (s : State) (p : Port) (f : PortIface → PortIface) : (s.updPort p f).completions = s.completions := rfl

@[simp] theorem State.pending_setSlot (s : State) (r : RegionIx) (x : Option Region) : (s.setSlot r x).pending = s.pending := rfl
@[simp] theorem State.rstLow_setSlot (s : State) (r : RegionIx) (x : Option Region) : (s.setSlot r x).rstLow = s.rstLow := rfl
@[simp] theorem State.supervisor_setSlot (s : State) (r : RegionIx) (x : Option Region) : (s.setSlot r x).supervisor = s.supervisor := rfl
@[simp] theorem State.divider_setSlot (s : State) (r : RegionIx) (x : Option Region) : (s.setSlot r x).divider = s.divider := rfl
@[simp] theorem State.part_setSlot (s : State) (r : RegionIx) (x : Option Region) : (s.setSlot r x).part = s.part := rfl
@[simp] theorem State.wipeList_setSlot (s : State) (r : RegionIx) (x : Option Region) : (s.setSlot r x).wipeList = s.wipeList := rfl
@[simp] theorem State.swept_setSlot (s : State) (r : RegionIx) (x : Option Region) : (s.setSlot r x).swept = s.swept := rfl
@[simp] theorem State.jobQueue_setSlot (s : State) (r : RegionIx) (x : Option Region) : (s.setSlot r x).jobQueue = s.jobQueue := rfl
@[simp] theorem State.current_setSlot (s : State) (r : RegionIx) (x : Option Region) : (s.setSlot r x).current = s.current := rfl
@[simp] theorem State.starts_setSlot (s : State) (r : RegionIx) (x : Option Region) : (s.setSlot r x).starts = s.starts := rfl
@[simp] theorem State.reports_setSlot (s : State) (r : RegionIx) (x : Option Region) : (s.setSlot r x).reports = s.reports := rfl
@[simp] theorem State.initialPrio_setSlot (s : State) (r : RegionIx) (x : Option Region) : (s.setSlot r x).initialPrio = s.initialPrio := rfl
@[simp] theorem State.effectivePrio_setSlot (s : State) (r : RegionIx) (x : Option Region) : (s.setSlot r x).effectivePrio = s.effectivePrio := rfl
@[simp] theorem State.store_setSlot (s : State) (r : RegionIx) (x : Option Region) : (s.setSlot r x).store = s.store := rfl
@[simp] theorem State.fenceRequests_setSlot (s : State) (r : RegionIx) (x : Option Region) : (s.setSlot r x).fenceRequests = s.fenceRequests := rfl
@[simp] theorem State.completions_setSlot (s : State) (r : RegionIx) (x : Option Region) : (s.setSlot r x).completions = s.completions := rfl
@[simp] theorem State.ports_setSlot (s : State) (r : RegionIx) (x : Option Region) : (s.setSlot r x).ports = s.ports := rfl

@[simp] theorem State.pending_updRegion (s : State) (r : RegionIx) (f : Region → Region) : (s.updRegion r f).pending = s.pending := rfl
@[simp] theorem State.rstLow_updRegion (s : State) (r : RegionIx) (f : Region → Region) : (s.updRegion r f).rstLow = s.rstLow := rfl
@[simp] theorem State.supervisor_updRegion (s : State) (r : RegionIx) (f : Region → Region) : (s.updRegion r f).supervisor = s.supervisor := rfl
@[simp] theorem State.divider_updRegion (s : State) (r : RegionIx) (f : Region → Region) : (s.updRegion r f).divider = s.divider := rfl
@[simp] theorem State.part_updRegion (s : State) (r : RegionIx) (f : Region → Region) : (s.updRegion r f).part = s.part := rfl
@[simp] theorem State.wipeList_updRegion (s : State) (r : RegionIx) (f : Region → Region) : (s.updRegion r f).wipeList = s.wipeList := rfl
@[simp] theorem State.swept_updRegion (s : State) (r : RegionIx) (f : Region → Region) : (s.updRegion r f).swept = s.swept := rfl
@[simp] theorem State.jobQueue_updRegion (s : State) (r : RegionIx) (f : Region → Region) : (s.updRegion r f).jobQueue = s.jobQueue := rfl
@[simp] theorem State.current_updRegion (s : State) (r : RegionIx) (f : Region → Region) : (s.updRegion r f).current = s.current := rfl
@[simp] theorem State.starts_updRegion (s : State) (r : RegionIx) (f : Region → Region) : (s.updRegion r f).starts = s.starts := rfl
@[simp] theorem State.reports_updRegion (s : State) (r : RegionIx) (f : Region → Region) : (s.updRegion r f).reports = s.reports := rfl
@[simp] theorem State.initialPrio_updRegion (s : State) (r : RegionIx) (f : Region → Region) : (s.updRegion r f).initialPrio = s.initialPrio := rfl
@[simp] theorem State.effectivePrio_updRegion (s : State) (r : RegionIx) (f : Region → Region) : (s.updRegion r f).effectivePrio = s.effectivePrio := rfl
@[simp] theorem State.store_updRegion (s : State) (r : RegionIx) (f : Region → Region) : (s.updRegion r f).store = s.store := rfl
@[simp] theorem State.fenceRequests_updRegion (s : State) (r : RegionIx) (f : Region → Region) : (s.updRegion r f).fenceRequests = s.fenceRequests := rfl
@[simp] theorem State.completions_updRegion (s : State) (r : RegionIx) (f : Region → Region) : (s.updRegion r f).completions = s.completions := rfl
@[simp] theorem State.ports_updRegion (s : State) (r : RegionIx) (f : Region → Region) : (s.updRegion r f).ports = s.ports := rfl

@[simp] theorem State.pending_offer (s : State) (p : Port) (x : Record) : (s.offer p x).pending = s.pending := rfl
@[simp] theorem State.rstLow_offer (s : State) (p : Port) (x : Record) : (s.offer p x).rstLow = s.rstLow := rfl
@[simp] theorem State.supervisor_offer (s : State) (p : Port) (x : Record) : (s.offer p x).supervisor = s.supervisor := rfl
@[simp] theorem State.divider_offer (s : State) (p : Port) (x : Record) : (s.offer p x).divider = s.divider := rfl
@[simp] theorem State.part_offer (s : State) (p : Port) (x : Record) : (s.offer p x).part = s.part := rfl
@[simp] theorem State.wipeList_offer (s : State) (p : Port) (x : Record) : (s.offer p x).wipeList = s.wipeList := rfl
@[simp] theorem State.swept_offer (s : State) (p : Port) (x : Record) : (s.offer p x).swept = s.swept := rfl
@[simp] theorem State.jobQueue_offer (s : State) (p : Port) (x : Record) : (s.offer p x).jobQueue = s.jobQueue := rfl
@[simp] theorem State.current_offer (s : State) (p : Port) (x : Record) : (s.offer p x).current = s.current := rfl
@[simp] theorem State.starts_offer (s : State) (p : Port) (x : Record) : (s.offer p x).starts = s.starts := rfl
@[simp] theorem State.reports_offer (s : State) (p : Port) (x : Record) : (s.offer p x).reports = s.reports := rfl
@[simp] theorem State.initialPrio_offer (s : State) (p : Port) (x : Record) : (s.offer p x).initialPrio = s.initialPrio := rfl
@[simp] theorem State.effectivePrio_offer (s : State) (p : Port) (x : Record) : (s.offer p x).effectivePrio = s.effectivePrio := rfl
@[simp] theorem State.store_offer (s : State) (p : Port) (x : Record) : (s.offer p x).store = s.store := rfl
@[simp] theorem State.slots_offer (s : State) (p : Port) (x : Record) : (s.offer p x).slots = s.slots := rfl
@[simp] theorem State.fenceRequests_offer (s : State) (p : Port) (x : Record) : (s.offer p x).fenceRequests = s.fenceRequests := rfl
@[simp] theorem State.completions_offer (s : State) (p : Port) (x : Record) : (s.offer p x).completions = s.completions := rfl

@[simp] theorem State.pending_complete (s : State) (p : Port) (b : BusResult) : (s.complete p b).pending = s.pending := rfl
@[simp] theorem State.rstLow_complete (s : State) (p : Port) (b : BusResult) : (s.complete p b).rstLow = s.rstLow := rfl
@[simp] theorem State.supervisor_complete (s : State) (p : Port) (b : BusResult) : (s.complete p b).supervisor = s.supervisor := rfl
@[simp] theorem State.divider_complete (s : State) (p : Port) (b : BusResult) : (s.complete p b).divider = s.divider := rfl
@[simp] theorem State.part_complete (s : State) (p : Port) (b : BusResult) : (s.complete p b).part = s.part := rfl
@[simp] theorem State.wipeList_complete (s : State) (p : Port) (b : BusResult) : (s.complete p b).wipeList = s.wipeList := rfl
@[simp] theorem State.swept_complete (s : State) (p : Port) (b : BusResult) : (s.complete p b).swept = s.swept := rfl
@[simp] theorem State.jobQueue_complete (s : State) (p : Port) (b : BusResult) : (s.complete p b).jobQueue = s.jobQueue := rfl
@[simp] theorem State.current_complete (s : State) (p : Port) (b : BusResult) : (s.complete p b).current = s.current := rfl
@[simp] theorem State.starts_complete (s : State) (p : Port) (b : BusResult) : (s.complete p b).starts = s.starts := rfl
@[simp] theorem State.reports_complete (s : State) (p : Port) (b : BusResult) : (s.complete p b).reports = s.reports := rfl
@[simp] theorem State.initialPrio_complete (s : State) (p : Port) (b : BusResult) : (s.complete p b).initialPrio = s.initialPrio := rfl
@[simp] theorem State.effectivePrio_complete (s : State) (p : Port) (b : BusResult) : (s.complete p b).effectivePrio = s.effectivePrio := rfl
@[simp] theorem State.store_complete (s : State) (p : Port) (b : BusResult) : (s.complete p b).store = s.store := rfl
@[simp] theorem State.slots_complete (s : State) (p : Port) (b : BusResult) : (s.complete p b).slots = s.slots := rfl
@[simp] theorem State.fenceRequests_complete (s : State) (p : Port) (b : BusResult) : (s.complete p b).fenceRequests = s.fenceRequests := rfl
@[simp] theorem State.completions_complete (s : State) (p : Port) (b : BusResult) : (s.complete p b).completions = s.completions := rfl

@[simp] theorem State.pending_sendFence (s : State) (r : RegionIx) (p : Port) : (s.sendFence r p).pending = s.pending := rfl
@[simp] theorem State.rstLow_sendFence (s : State) (r : RegionIx) (p : Port) : (s.sendFence r p).rstLow = s.rstLow := rfl
@[simp] theorem State.supervisor_sendFence (s : State) (r : RegionIx) (p : Port) : (s.sendFence r p).supervisor = s.supervisor := rfl
@[simp] theorem State.divider_sendFence (s : State) (r : RegionIx) (p : Port) : (s.sendFence r p).divider = s.divider := rfl
@[simp] theorem State.part_sendFence (s : State) (r : RegionIx) (p : Port) : (s.sendFence r p).part = s.part := rfl
@[simp] theorem State.wipeList_sendFence (s : State) (r : RegionIx) (p : Port) : (s.sendFence r p).wipeList = s.wipeList := rfl
@[simp] theorem State.swept_sendFence (s : State) (r : RegionIx) (p : Port) : (s.sendFence r p).swept = s.swept := rfl
@[simp] theorem State.jobQueue_sendFence (s : State) (r : RegionIx) (p : Port) : (s.sendFence r p).jobQueue = s.jobQueue := rfl
@[simp] theorem State.current_sendFence (s : State) (r : RegionIx) (p : Port) : (s.sendFence r p).current = s.current := rfl
@[simp] theorem State.starts_sendFence (s : State) (r : RegionIx) (p : Port) : (s.sendFence r p).starts = s.starts := rfl
@[simp] theorem State.reports_sendFence (s : State) (r : RegionIx) (p : Port) : (s.sendFence r p).reports = s.reports := rfl
@[simp] theorem State.initialPrio_sendFence (s : State) (r : RegionIx) (p : Port) : (s.sendFence r p).initialPrio = s.initialPrio := rfl
@[simp] theorem State.effectivePrio_sendFence (s : State) (r : RegionIx) (p : Port) : (s.sendFence r p).effectivePrio = s.effectivePrio := rfl
@[simp] theorem State.store_sendFence (s : State) (r : RegionIx) (p : Port) : (s.sendFence r p).store = s.store := rfl
@[simp] theorem State.slots_sendFence (s : State) (r : RegionIx) (p : Port) : (s.sendFence r p).slots = s.slots := rfl
@[simp] theorem State.completions_sendFence (s : State) (r : RegionIx) (p : Port) : (s.sendFence r p).completions = s.completions := rfl
@[simp] theorem State.ports_sendFence (s : State) (r : RegionIx) (p : Port) : (s.sendFence r p).ports = s.ports := rfl

@[simp] theorem State.pending_reportFence (s : State) (p : Port) (r : RegionIx) : (s.reportFence p r).pending = s.pending := rfl
@[simp] theorem State.rstLow_reportFence (s : State) (p : Port) (r : RegionIx) : (s.reportFence p r).rstLow = s.rstLow := rfl
@[simp] theorem State.supervisor_reportFence (s : State) (p : Port) (r : RegionIx) : (s.reportFence p r).supervisor = s.supervisor := rfl
@[simp] theorem State.divider_reportFence (s : State) (p : Port) (r : RegionIx) : (s.reportFence p r).divider = s.divider := rfl
@[simp] theorem State.part_reportFence (s : State) (p : Port) (r : RegionIx) : (s.reportFence p r).part = s.part := rfl
@[simp] theorem State.wipeList_reportFence (s : State) (p : Port) (r : RegionIx) : (s.reportFence p r).wipeList = s.wipeList := rfl
@[simp] theorem State.swept_reportFence (s : State) (p : Port) (r : RegionIx) : (s.reportFence p r).swept = s.swept := rfl
@[simp] theorem State.jobQueue_reportFence (s : State) (p : Port) (r : RegionIx) : (s.reportFence p r).jobQueue = s.jobQueue := rfl
@[simp] theorem State.current_reportFence (s : State) (p : Port) (r : RegionIx) : (s.reportFence p r).current = s.current := rfl
@[simp] theorem State.starts_reportFence (s : State) (p : Port) (r : RegionIx) : (s.reportFence p r).starts = s.starts := rfl
@[simp] theorem State.reports_reportFence (s : State) (p : Port) (r : RegionIx) : (s.reportFence p r).reports = s.reports := rfl
@[simp] theorem State.initialPrio_reportFence (s : State) (p : Port) (r : RegionIx) : (s.reportFence p r).initialPrio = s.initialPrio := rfl
@[simp] theorem State.effectivePrio_reportFence (s : State) (p : Port) (r : RegionIx) : (s.reportFence p r).effectivePrio = s.effectivePrio := rfl
@[simp] theorem State.store_reportFence (s : State) (p : Port) (r : RegionIx) : (s.reportFence p r).store = s.store := rfl
@[simp] theorem State.slots_reportFence (s : State) (p : Port) (r : RegionIx) : (s.reportFence p r).slots = s.slots := rfl
@[simp] theorem State.fenceRequests_reportFence (s : State) (p : Port) (r : RegionIx) : (s.reportFence p r).fenceRequests = s.fenceRequests := rfl
@[simp] theorem State.ports_reportFence (s : State) (p : Port) (r : RegionIx) : (s.reportFence p r).ports = s.ports := rfl

@[simp] theorem State.pending_landWrite (s : State) (w : StoreWrite) : (s.landWrite w).pending = s.pending := rfl
@[simp] theorem State.rstLow_landWrite (s : State) (w : StoreWrite) : (s.landWrite w).rstLow = s.rstLow := rfl
@[simp] theorem State.supervisor_landWrite (s : State) (w : StoreWrite) : (s.landWrite w).supervisor = s.supervisor := rfl
@[simp] theorem State.divider_landWrite (s : State) (w : StoreWrite) : (s.landWrite w).divider = s.divider := rfl
@[simp] theorem State.part_landWrite (s : State) (w : StoreWrite) : (s.landWrite w).part = s.part := rfl
@[simp] theorem State.wipeList_landWrite (s : State) (w : StoreWrite) : (s.landWrite w).wipeList = s.wipeList := rfl
@[simp] theorem State.swept_landWrite (s : State) (w : StoreWrite) : (s.landWrite w).swept = s.swept := rfl
@[simp] theorem State.jobQueue_landWrite (s : State) (w : StoreWrite) : (s.landWrite w).jobQueue = s.jobQueue := rfl
@[simp] theorem State.current_landWrite (s : State) (w : StoreWrite) : (s.landWrite w).current = s.current := rfl
@[simp] theorem State.starts_landWrite (s : State) (w : StoreWrite) : (s.landWrite w).starts = s.starts := rfl
@[simp] theorem State.reports_landWrite (s : State) (w : StoreWrite) : (s.landWrite w).reports = s.reports := rfl
@[simp] theorem State.initialPrio_landWrite (s : State) (w : StoreWrite) : (s.landWrite w).initialPrio = s.initialPrio := rfl
@[simp] theorem State.effectivePrio_landWrite (s : State) (w : StoreWrite) : (s.landWrite w).effectivePrio = s.effectivePrio := rfl
@[simp] theorem State.slots_landWrite (s : State) (w : StoreWrite) : (s.landWrite w).slots = s.slots := rfl
@[simp] theorem State.fenceRequests_landWrite (s : State) (w : StoreWrite) : (s.landWrite w).fenceRequests = s.fenceRequests := rfl
@[simp] theorem State.completions_landWrite (s : State) (w : StoreWrite) : (s.landWrite w).completions = s.completions := rfl
@[simp] theorem State.ports_landWrite (s : State) (w : StoreWrite) : (s.landWrite w).ports = s.ports := rfl

@[simp] theorem State.pending_launched (s : State) (p : Port) (w : Word) : (s.launched p w).pending = s.pending := rfl
@[simp] theorem State.rstLow_launched (s : State) (p : Port) (w : Word) : (s.launched p w).rstLow = s.rstLow := rfl
@[simp] theorem State.supervisor_launched (s : State) (p : Port) (w : Word) : (s.launched p w).supervisor = s.supervisor := rfl
@[simp] theorem State.divider_launched (s : State) (p : Port) (w : Word) : (s.launched p w).divider = s.divider := rfl
@[simp] theorem State.part_launched (s : State) (p : Port) (w : Word) : (s.launched p w).part = s.part := rfl
@[simp] theorem State.wipeList_launched (s : State) (p : Port) (w : Word) : (s.launched p w).wipeList = s.wipeList := rfl
@[simp] theorem State.swept_launched (s : State) (p : Port) (w : Word) : (s.launched p w).swept = s.swept := rfl
@[simp] theorem State.jobQueue_launched (s : State) (p : Port) (w : Word) : (s.launched p w).jobQueue = s.jobQueue := rfl
@[simp] theorem State.current_launched (s : State) (p : Port) (w : Word) : (s.launched p w).current = s.current := rfl
@[simp] theorem State.starts_launched (s : State) (p : Port) (w : Word) : (s.launched p w).starts = s.starts := rfl
@[simp] theorem State.reports_launched (s : State) (p : Port) (w : Word) : (s.launched p w).reports = s.reports := rfl
@[simp] theorem State.initialPrio_launched (s : State) (p : Port) (w : Word) : (s.launched p w).initialPrio = s.initialPrio := rfl
@[simp] theorem State.effectivePrio_launched (s : State) (p : Port) (w : Word) : (s.launched p w).effectivePrio = s.effectivePrio := rfl
@[simp] theorem State.store_launched (s : State) (p : Port) (w : Word) : (s.launched p w).store = s.store := rfl
@[simp] theorem State.slots_launched (s : State) (p : Port) (w : Word) : (s.launched p w).slots = s.slots := rfl
@[simp] theorem State.fenceRequests_launched (s : State) (p : Port) (w : Word) : (s.launched p w).fenceRequests = s.fenceRequests := rfl
@[simp] theorem State.completions_launched (s : State) (p : Port) (w : Word) : (s.launched p w).completions = s.completions := rfl

@[simp] theorem State.pending_answered (s : State) (p : Port) (c : BitVec 8) (v : Word) : (s.answered p c v).pending = s.pending := rfl
@[simp] theorem State.rstLow_answered (s : State) (p : Port) (c : BitVec 8) (v : Word) : (s.answered p c v).rstLow = s.rstLow := rfl
@[simp] theorem State.supervisor_answered (s : State) (p : Port) (c : BitVec 8) (v : Word) : (s.answered p c v).supervisor = s.supervisor := rfl
@[simp] theorem State.divider_answered (s : State) (p : Port) (c : BitVec 8) (v : Word) : (s.answered p c v).divider = s.divider := rfl
@[simp] theorem State.part_answered (s : State) (p : Port) (c : BitVec 8) (v : Word) : (s.answered p c v).part = s.part := rfl
@[simp] theorem State.wipeList_answered (s : State) (p : Port) (c : BitVec 8) (v : Word) : (s.answered p c v).wipeList = s.wipeList := rfl
@[simp] theorem State.swept_answered (s : State) (p : Port) (c : BitVec 8) (v : Word) : (s.answered p c v).swept = s.swept := rfl
@[simp] theorem State.jobQueue_answered (s : State) (p : Port) (c : BitVec 8) (v : Word) : (s.answered p c v).jobQueue = s.jobQueue := rfl
@[simp] theorem State.current_answered (s : State) (p : Port) (c : BitVec 8) (v : Word) : (s.answered p c v).current = s.current := rfl
@[simp] theorem State.starts_answered (s : State) (p : Port) (c : BitVec 8) (v : Word) : (s.answered p c v).starts = s.starts := rfl
@[simp] theorem State.reports_answered (s : State) (p : Port) (c : BitVec 8) (v : Word) : (s.answered p c v).reports = s.reports := rfl
@[simp] theorem State.initialPrio_answered (s : State) (p : Port) (c : BitVec 8) (v : Word) : (s.answered p c v).initialPrio = s.initialPrio := rfl
@[simp] theorem State.effectivePrio_answered (s : State) (p : Port) (c : BitVec 8) (v : Word) : (s.answered p c v).effectivePrio = s.effectivePrio := rfl
@[simp] theorem State.store_answered (s : State) (p : Port) (c : BitVec 8) (v : Word) : (s.answered p c v).store = s.store := rfl
@[simp] theorem State.slots_answered (s : State) (p : Port) (c : BitVec 8) (v : Word) : (s.answered p c v).slots = s.slots := rfl
@[simp] theorem State.fenceRequests_answered (s : State) (p : Port) (c : BitVec 8) (v : Word) : (s.answered p c v).fenceRequests = s.fenceRequests := rfl
@[simp] theorem State.completions_answered (s : State) (p : Port) (c : BitVec 8) (v : Word) : (s.answered p c v).completions = s.completions := rfl

@[simp] theorem State.pending_replied (s : State) (p : Port) (w : Word) (c : BitVec 8) (v : Word) : (s.replied p w c v).pending = s.pending := rfl
@[simp] theorem State.rstLow_replied (s : State) (p : Port) (w : Word) (c : BitVec 8) (v : Word) : (s.replied p w c v).rstLow = s.rstLow := rfl
@[simp] theorem State.supervisor_replied (s : State) (p : Port) (w : Word) (c : BitVec 8) (v : Word) : (s.replied p w c v).supervisor = s.supervisor := rfl
@[simp] theorem State.divider_replied (s : State) (p : Port) (w : Word) (c : BitVec 8) (v : Word) : (s.replied p w c v).divider = s.divider := rfl
@[simp] theorem State.part_replied (s : State) (p : Port) (w : Word) (c : BitVec 8) (v : Word) : (s.replied p w c v).part = s.part := rfl
@[simp] theorem State.wipeList_replied (s : State) (p : Port) (w : Word) (c : BitVec 8) (v : Word) : (s.replied p w c v).wipeList = s.wipeList := rfl
@[simp] theorem State.swept_replied (s : State) (p : Port) (w : Word) (c : BitVec 8) (v : Word) : (s.replied p w c v).swept = s.swept := rfl
@[simp] theorem State.jobQueue_replied (s : State) (p : Port) (w : Word) (c : BitVec 8) (v : Word) : (s.replied p w c v).jobQueue = s.jobQueue := rfl
@[simp] theorem State.current_replied (s : State) (p : Port) (w : Word) (c : BitVec 8) (v : Word) : (s.replied p w c v).current = s.current := rfl
@[simp] theorem State.starts_replied (s : State) (p : Port) (w : Word) (c : BitVec 8) (v : Word) : (s.replied p w c v).starts = s.starts := rfl
@[simp] theorem State.reports_replied (s : State) (p : Port) (w : Word) (c : BitVec 8) (v : Word) : (s.replied p w c v).reports = s.reports := rfl
@[simp] theorem State.initialPrio_replied (s : State) (p : Port) (w : Word) (c : BitVec 8) (v : Word) : (s.replied p w c v).initialPrio = s.initialPrio := rfl
@[simp] theorem State.effectivePrio_replied (s : State) (p : Port) (w : Word) (c : BitVec 8) (v : Word) : (s.replied p w c v).effectivePrio = s.effectivePrio := rfl
@[simp] theorem State.store_replied (s : State) (p : Port) (w : Word) (c : BitVec 8) (v : Word) : (s.replied p w c v).store = s.store := rfl
@[simp] theorem State.slots_replied (s : State) (p : Port) (w : Word) (c : BitVec 8) (v : Word) : (s.replied p w c v).slots = s.slots := rfl
@[simp] theorem State.fenceRequests_replied (s : State) (p : Port) (w : Word) (c : BitVec 8) (v : Word) : (s.replied p w c v).fenceRequests = s.fenceRequests := rfl
@[simp] theorem State.completions_replied (s : State) (p : Port) (w : Word) (c : BitVec 8) (v : Word) : (s.replied p w c v).completions = s.completions := rfl

@[simp] theorem State.pending_wrote (s : State) (p : Port) (f : PortIface → PortIface) : (s.wrote p f).pending = s.pending := rfl
@[simp] theorem State.rstLow_wrote (s : State) (p : Port) (f : PortIface → PortIface) : (s.wrote p f).rstLow = s.rstLow := rfl
@[simp] theorem State.supervisor_wrote (s : State) (p : Port) (f : PortIface → PortIface) : (s.wrote p f).supervisor = s.supervisor := rfl
@[simp] theorem State.divider_wrote (s : State) (p : Port) (f : PortIface → PortIface) : (s.wrote p f).divider = s.divider := rfl
@[simp] theorem State.part_wrote (s : State) (p : Port) (f : PortIface → PortIface) : (s.wrote p f).part = s.part := rfl
@[simp] theorem State.wipeList_wrote (s : State) (p : Port) (f : PortIface → PortIface) : (s.wrote p f).wipeList = s.wipeList := rfl
@[simp] theorem State.swept_wrote (s : State) (p : Port) (f : PortIface → PortIface) : (s.wrote p f).swept = s.swept := rfl
@[simp] theorem State.jobQueue_wrote (s : State) (p : Port) (f : PortIface → PortIface) : (s.wrote p f).jobQueue = s.jobQueue := rfl
@[simp] theorem State.current_wrote (s : State) (p : Port) (f : PortIface → PortIface) : (s.wrote p f).current = s.current := rfl
@[simp] theorem State.starts_wrote (s : State) (p : Port) (f : PortIface → PortIface) : (s.wrote p f).starts = s.starts := rfl
@[simp] theorem State.reports_wrote (s : State) (p : Port) (f : PortIface → PortIface) : (s.wrote p f).reports = s.reports := rfl
@[simp] theorem State.initialPrio_wrote (s : State) (p : Port) (f : PortIface → PortIface) : (s.wrote p f).initialPrio = s.initialPrio := rfl
@[simp] theorem State.effectivePrio_wrote (s : State) (p : Port) (f : PortIface → PortIface) : (s.wrote p f).effectivePrio = s.effectivePrio := rfl
@[simp] theorem State.store_wrote (s : State) (p : Port) (f : PortIface → PortIface) : (s.wrote p f).store = s.store := rfl
@[simp] theorem State.slots_wrote (s : State) (p : Port) (f : PortIface → PortIface) : (s.wrote p f).slots = s.slots := rfl
@[simp] theorem State.fenceRequests_wrote (s : State) (p : Port) (f : PortIface → PortIface) : (s.wrote p f).fenceRequests = s.fenceRequests := rfl
@[simp] theorem State.completions_wrote (s : State) (p : Port) (f : PortIface → PortIface) : (s.wrote p f).completions = s.completions := rfl

@[simp] theorem State.pending_countLanding (s : State) (p : Port) : (s.countLanding p).pending = s.pending := rfl
@[simp] theorem State.rstLow_countLanding (s : State) (p : Port) : (s.countLanding p).rstLow = s.rstLow := rfl
@[simp] theorem State.supervisor_countLanding (s : State) (p : Port) : (s.countLanding p).supervisor = s.supervisor := rfl
@[simp] theorem State.divider_countLanding (s : State) (p : Port) : (s.countLanding p).divider = s.divider := rfl
@[simp] theorem State.part_countLanding (s : State) (p : Port) : (s.countLanding p).part = s.part := rfl
@[simp] theorem State.wipeList_countLanding (s : State) (p : Port) : (s.countLanding p).wipeList = s.wipeList := rfl
@[simp] theorem State.swept_countLanding (s : State) (p : Port) : (s.countLanding p).swept = s.swept := rfl
@[simp] theorem State.jobQueue_countLanding (s : State) (p : Port) : (s.countLanding p).jobQueue = s.jobQueue := rfl
@[simp] theorem State.current_countLanding (s : State) (p : Port) : (s.countLanding p).current = s.current := rfl
@[simp] theorem State.starts_countLanding (s : State) (p : Port) : (s.countLanding p).starts = s.starts := rfl
@[simp] theorem State.reports_countLanding (s : State) (p : Port) : (s.countLanding p).reports = s.reports := rfl
@[simp] theorem State.initialPrio_countLanding (s : State) (p : Port) : (s.countLanding p).initialPrio = s.initialPrio := rfl
@[simp] theorem State.effectivePrio_countLanding (s : State) (p : Port) : (s.countLanding p).effectivePrio = s.effectivePrio := rfl
@[simp] theorem State.store_countLanding (s : State) (p : Port) : (s.countLanding p).store = s.store := rfl
@[simp] theorem State.slots_countLanding (s : State) (p : Port) : (s.countLanding p).slots = s.slots := rfl
@[simp] theorem State.fenceRequests_countLanding (s : State) (p : Port) : (s.countLanding p).fenceRequests = s.fenceRequests := rfl

@[simp] theorem State.pending_reportMarks (s : State) (p : Port) : (s.reportMarks p).pending = s.pending := rfl
@[simp] theorem State.rstLow_reportMarks (s : State) (p : Port) : (s.reportMarks p).rstLow = s.rstLow := rfl
@[simp] theorem State.supervisor_reportMarks (s : State) (p : Port) : (s.reportMarks p).supervisor = s.supervisor := rfl
@[simp] theorem State.divider_reportMarks (s : State) (p : Port) : (s.reportMarks p).divider = s.divider := rfl
@[simp] theorem State.part_reportMarks (s : State) (p : Port) : (s.reportMarks p).part = s.part := rfl
@[simp] theorem State.wipeList_reportMarks (s : State) (p : Port) : (s.reportMarks p).wipeList = s.wipeList := rfl
@[simp] theorem State.swept_reportMarks (s : State) (p : Port) : (s.reportMarks p).swept = s.swept := rfl
@[simp] theorem State.jobQueue_reportMarks (s : State) (p : Port) : (s.reportMarks p).jobQueue = s.jobQueue := rfl
@[simp] theorem State.current_reportMarks (s : State) (p : Port) : (s.reportMarks p).current = s.current := rfl
@[simp] theorem State.starts_reportMarks (s : State) (p : Port) : (s.reportMarks p).starts = s.starts := rfl
@[simp] theorem State.reports_reportMarks (s : State) (p : Port) : (s.reportMarks p).reports = s.reports := rfl
@[simp] theorem State.initialPrio_reportMarks (s : State) (p : Port) : (s.reportMarks p).initialPrio = s.initialPrio := rfl
@[simp] theorem State.effectivePrio_reportMarks (s : State) (p : Port) : (s.reportMarks p).effectivePrio = s.effectivePrio := rfl
@[simp] theorem State.store_reportMarks (s : State) (p : Port) : (s.reportMarks p).store = s.store := rfl
@[simp] theorem State.slots_reportMarks (s : State) (p : Port) : (s.reportMarks p).slots = s.slots := rfl
@[simp] theorem State.fenceRequests_reportMarks (s : State) (p : Port) : (s.reportMarks p).fenceRequests = s.fenceRequests := rfl
@[simp] theorem State.ports_reportMarks (s : State) (p : Port) : (s.reportMarks p).ports = s.ports := rfl

/-! ### The engine's jobs: what starting and queueing one leave alone -/

@[simp] theorem State.pending_startJob (s : State) (j : Job) (l : List Job) : (s.startJob j l).pending = s.pending := by
  unfold State.startJob; split <;> rfl
@[simp] theorem State.rstLow_startJob (s : State) (j : Job) (l : List Job) : (s.startJob j l).rstLow = s.rstLow := by
  unfold State.startJob; split <;> rfl
@[simp] theorem State.supervisor_startJob (s : State) (j : Job) (l : List Job) : (s.startJob j l).supervisor = s.supervisor := by
  unfold State.startJob; split <;> rfl
@[simp] theorem State.divider_startJob (s : State) (j : Job) (l : List Job) : (s.startJob j l).divider = s.divider := by
  unfold State.startJob; split <;> rfl
@[simp] theorem State.part_startJob (s : State) (j : Job) (l : List Job) : (s.startJob j l).part = s.part := by
  unfold State.startJob; split <;> rfl
@[simp] theorem State.wipeList_startJob (s : State) (j : Job) (l : List Job) : (s.startJob j l).wipeList = s.wipeList := by
  unfold State.startJob; split <;> rfl
@[simp] theorem State.swept_startJob (s : State) (j : Job) (l : List Job) : (s.startJob j l).swept = s.swept := by
  unfold State.startJob; split <;> rfl
@[simp] theorem State.reports_startJob (s : State) (j : Job) (l : List Job) : (s.startJob j l).reports = s.reports := by
  unfold State.startJob; split <;> rfl
@[simp] theorem State.initialPrio_startJob (s : State) (j : Job) (l : List Job) : (s.startJob j l).initialPrio = s.initialPrio := by
  unfold State.startJob; split <;> rfl
@[simp] theorem State.effectivePrio_startJob (s : State) (j : Job) (l : List Job) : (s.startJob j l).effectivePrio = s.effectivePrio := by
  unfold State.startJob; split <;> rfl
@[simp] theorem State.store_startJob (s : State) (j : Job) (l : List Job) : (s.startJob j l).store = s.store := by
  unfold State.startJob; split <;> rfl
@[simp] theorem State.fenceRequests_startJob (s : State) (j : Job) (l : List Job) : (s.startJob j l).fenceRequests = s.fenceRequests := by
  unfold State.startJob; split <;> rfl
@[simp] theorem State.completions_startJob (s : State) (j : Job) (l : List Job) : (s.startJob j l).completions = s.completions := by
  unfold State.startJob; split <;> rfl
@[simp] theorem State.ports_startJob (s : State) (j : Job) (l : List Job) : (s.startJob j l).ports = s.ports := by
  unfold State.startJob; split <;> rfl
@[simp] theorem State.slots_startJob (s : State) (j : Job) (l : List Job) : (s.startJob j l).slots = s.slots := by
  unfold State.startJob; split <;> rfl
@[simp] theorem State.port_startJob (s : State) (j : Job) (l : List Job) (p : Port) : (s.startJob j l).port p = s.port p := by simp [State.port]
@[simp] theorem State.slot_startJob (s : State) (j : Job) (l : List Job) (r : RegionIx) : (s.startJob j l).slot r = s.slot r := by
  simp [State.slot]

@[simp] theorem State.pending_takeStart (s : State) : (s.takeStart).pending = s.pending := by
  unfold State.takeStart; split <;> rfl
@[simp] theorem State.rstLow_takeStart (s : State) : (s.takeStart).rstLow = s.rstLow := by
  unfold State.takeStart; split <;> rfl
@[simp] theorem State.supervisor_takeStart (s : State) : (s.takeStart).supervisor = s.supervisor := by
  unfold State.takeStart; split <;> rfl
@[simp] theorem State.divider_takeStart (s : State) : (s.takeStart).divider = s.divider := by
  unfold State.takeStart; split <;> rfl
@[simp] theorem State.part_takeStart (s : State) : (s.takeStart).part = s.part := by
  unfold State.takeStart; split <;> rfl
@[simp] theorem State.wipeList_takeStart (s : State) : (s.takeStart).wipeList = s.wipeList := by
  unfold State.takeStart; split <;> rfl
@[simp] theorem State.swept_takeStart (s : State) : (s.takeStart).swept = s.swept := by
  unfold State.takeStart; split <;> rfl
@[simp] theorem State.reports_takeStart (s : State) : (s.takeStart).reports = s.reports := by
  unfold State.takeStart; split <;> rfl
@[simp] theorem State.initialPrio_takeStart (s : State) : (s.takeStart).initialPrio = s.initialPrio := by
  unfold State.takeStart; split <;> rfl
@[simp] theorem State.effectivePrio_takeStart (s : State) : (s.takeStart).effectivePrio = s.effectivePrio := by
  unfold State.takeStart; split <;> rfl
@[simp] theorem State.store_takeStart (s : State) : (s.takeStart).store = s.store := by
  unfold State.takeStart; split <;> rfl
@[simp] theorem State.fenceRequests_takeStart (s : State) : (s.takeStart).fenceRequests = s.fenceRequests := by
  unfold State.takeStart; split <;> rfl
@[simp] theorem State.completions_takeStart (s : State) : (s.takeStart).completions = s.completions := by
  unfold State.takeStart; split <;> rfl
@[simp] theorem State.ports_takeStart (s : State) : (s.takeStart).ports = s.ports := by
  unfold State.takeStart; split <;> rfl
@[simp] theorem State.jobQueue_takeStart (s : State) : (s.takeStart).jobQueue = s.jobQueue := by
  unfold State.takeStart; split <;> rfl
@[simp] theorem State.current_takeStart (s : State) : (s.takeStart).current = s.current := by
  unfold State.takeStart; split <;> rfl
@[simp] theorem State.port_takeStart (s : State) (p : Port) : (s.takeStart).port p = s.port p := by simp [State.port]

@[simp] theorem State.pending_startHead (s : State) : (s.startHead).pending = s.pending := by
  unfold State.startHead; repeat' split
  all_goals simp
@[simp] theorem State.rstLow_startHead (s : State) : (s.startHead).rstLow = s.rstLow := by
  unfold State.startHead; repeat' split
  all_goals simp
@[simp] theorem State.supervisor_startHead (s : State) : (s.startHead).supervisor = s.supervisor := by
  unfold State.startHead; repeat' split
  all_goals simp
@[simp] theorem State.divider_startHead (s : State) : (s.startHead).divider = s.divider := by
  unfold State.startHead; repeat' split
  all_goals simp
@[simp] theorem State.part_startHead (s : State) : (s.startHead).part = s.part := by
  unfold State.startHead; repeat' split
  all_goals simp
@[simp] theorem State.wipeList_startHead (s : State) : (s.startHead).wipeList = s.wipeList := by
  unfold State.startHead; repeat' split
  all_goals simp
@[simp] theorem State.swept_startHead (s : State) : (s.startHead).swept = s.swept := by
  unfold State.startHead; repeat' split
  all_goals simp
@[simp] theorem State.reports_startHead (s : State) : (s.startHead).reports = s.reports := by
  unfold State.startHead; repeat' split
  all_goals simp
@[simp] theorem State.initialPrio_startHead (s : State) : (s.startHead).initialPrio = s.initialPrio := by
  unfold State.startHead; repeat' split
  all_goals simp
@[simp] theorem State.effectivePrio_startHead (s : State) : (s.startHead).effectivePrio = s.effectivePrio := by
  unfold State.startHead; repeat' split
  all_goals simp
@[simp] theorem State.store_startHead (s : State) : (s.startHead).store = s.store := by
  unfold State.startHead; repeat' split
  all_goals simp
@[simp] theorem State.fenceRequests_startHead (s : State) : (s.startHead).fenceRequests = s.fenceRequests := by
  unfold State.startHead; repeat' split
  all_goals simp
@[simp] theorem State.completions_startHead (s : State) : (s.startHead).completions = s.completions := by
  unfold State.startHead; repeat' split
  all_goals simp
@[simp] theorem State.ports_startHead (s : State) : (s.startHead).ports = s.ports := by
  unfold State.startHead; repeat' split
  all_goals simp
@[simp] theorem State.slots_startHead (s : State) : (s.startHead).slots = s.slots := by
  unfold State.startHead; repeat' split
  all_goals simp
@[simp] theorem State.port_startHead (s : State) (p : Port) : (s.startHead).port p = s.port p := by simp [State.port]
@[simp] theorem State.slot_startHead (s : State) (r : RegionIx) : s.startHead.slot r = s.slot r := by simp [State.slot]

@[simp] theorem State.pending_startNext (s : State) : (s.startNext).pending = s.pending := by
  unfold State.startNext; split <;> simp
@[simp] theorem State.rstLow_startNext (s : State) : (s.startNext).rstLow = s.rstLow := by
  unfold State.startNext; split <;> simp
@[simp] theorem State.supervisor_startNext (s : State) : (s.startNext).supervisor = s.supervisor := by
  unfold State.startNext; split <;> simp
@[simp] theorem State.divider_startNext (s : State) : (s.startNext).divider = s.divider := by
  unfold State.startNext; split <;> simp
@[simp] theorem State.part_startNext (s : State) : (s.startNext).part = s.part := by
  unfold State.startNext; split <;> simp
@[simp] theorem State.wipeList_startNext (s : State) : (s.startNext).wipeList = s.wipeList := by
  unfold State.startNext; split <;> simp
@[simp] theorem State.swept_startNext (s : State) : (s.startNext).swept = s.swept := by
  unfold State.startNext; split <;> simp
@[simp] theorem State.reports_startNext (s : State) : (s.startNext).reports = s.reports := by
  unfold State.startNext; split <;> simp
@[simp] theorem State.initialPrio_startNext (s : State) : (s.startNext).initialPrio = s.initialPrio := by
  unfold State.startNext; split <;> simp
@[simp] theorem State.effectivePrio_startNext (s : State) : (s.startNext).effectivePrio = s.effectivePrio := by
  unfold State.startNext; split <;> simp
@[simp] theorem State.store_startNext (s : State) : (s.startNext).store = s.store := by
  unfold State.startNext; split <;> simp
@[simp] theorem State.fenceRequests_startNext (s : State) : (s.startNext).fenceRequests = s.fenceRequests := by
  unfold State.startNext; split <;> simp
@[simp] theorem State.completions_startNext (s : State) : (s.startNext).completions = s.completions := by
  unfold State.startNext; split <;> simp
@[simp] theorem State.ports_startNext (s : State) : (s.startNext).ports = s.ports := by
  unfold State.startNext; split <;> simp
@[simp] theorem State.port_startNext (s : State) (p : Port) : (s.startNext).port p = s.port p := by simp [State.port]

@[simp] theorem State.pending_enqueueJob (s : State) (r : RegionIx) (k : JobKind) (q : Option Port) : (s.enqueueJob r k q).pending = s.pending := rfl
@[simp] theorem State.rstLow_enqueueJob (s : State) (r : RegionIx) (k : JobKind) (q : Option Port) : (s.enqueueJob r k q).rstLow = s.rstLow := rfl
@[simp] theorem State.supervisor_enqueueJob (s : State) (r : RegionIx) (k : JobKind) (q : Option Port) : (s.enqueueJob r k q).supervisor = s.supervisor := rfl
@[simp] theorem State.divider_enqueueJob (s : State) (r : RegionIx) (k : JobKind) (q : Option Port) : (s.enqueueJob r k q).divider = s.divider := rfl
@[simp] theorem State.part_enqueueJob (s : State) (r : RegionIx) (k : JobKind) (q : Option Port) : (s.enqueueJob r k q).part = s.part := rfl
@[simp] theorem State.wipeList_enqueueJob (s : State) (r : RegionIx) (k : JobKind) (q : Option Port) : (s.enqueueJob r k q).wipeList = s.wipeList := rfl
@[simp] theorem State.swept_enqueueJob (s : State) (r : RegionIx) (k : JobKind) (q : Option Port) : (s.enqueueJob r k q).swept = s.swept := rfl
@[simp] theorem State.reports_enqueueJob (s : State) (r : RegionIx) (k : JobKind) (q : Option Port) : (s.enqueueJob r k q).reports = s.reports := rfl
@[simp] theorem State.initialPrio_enqueueJob (s : State) (r : RegionIx) (k : JobKind) (q : Option Port) : (s.enqueueJob r k q).initialPrio = s.initialPrio := rfl
@[simp] theorem State.effectivePrio_enqueueJob (s : State) (r : RegionIx) (k : JobKind) (q : Option Port) : (s.enqueueJob r k q).effectivePrio = s.effectivePrio := rfl
@[simp] theorem State.store_enqueueJob (s : State) (r : RegionIx) (k : JobKind) (q : Option Port) : (s.enqueueJob r k q).store = s.store := rfl
@[simp] theorem State.fenceRequests_enqueueJob (s : State) (r : RegionIx) (k : JobKind) (q : Option Port) : (s.enqueueJob r k q).fenceRequests = s.fenceRequests := rfl
@[simp] theorem State.completions_enqueueJob (s : State) (r : RegionIx) (k : JobKind) (q : Option Port) : (s.enqueueJob r k q).completions = s.completions := rfl
@[simp] theorem State.ports_enqueueJob (s : State) (r : RegionIx) (k : JobKind) (q : Option Port) : (s.enqueueJob r k q).ports = s.ports := rfl
@[simp] theorem State.current_enqueueJob (s : State) (r : RegionIx) (k : JobKind) (q : Option Port) : (s.enqueueJob r k q).current = s.current := rfl
@[simp] theorem State.starts_enqueueJob (s : State) (r : RegionIx) (k : JobKind) (q : Option Port) : (s.enqueueJob r k q).starts = s.starts := rfl
@[simp] theorem State.jobQueue_enqueueJob (s : State) (r : RegionIx) (k : JobKind) (q : Option Port) :
    (s.enqueueJob r k q).jobQueue = s.jobQueue ++ [⟨k, r, q⟩] := rfl

@[simp] theorem State.pending_queueJob (s : State) (r : RegionIx) (k : JobKind) (q : Option Port) : (s.queueJob r k q).pending = s.pending := by
  unfold State.queueJob; split <;> simp
@[simp] theorem State.rstLow_queueJob (s : State) (r : RegionIx) (k : JobKind) (q : Option Port) : (s.queueJob r k q).rstLow = s.rstLow := by
  unfold State.queueJob; split <;> simp
@[simp] theorem State.supervisor_queueJob (s : State) (r : RegionIx) (k : JobKind) (q : Option Port) : (s.queueJob r k q).supervisor = s.supervisor := by
  unfold State.queueJob; split <;> simp
@[simp] theorem State.divider_queueJob (s : State) (r : RegionIx) (k : JobKind) (q : Option Port) : (s.queueJob r k q).divider = s.divider := by
  unfold State.queueJob; split <;> simp
@[simp] theorem State.part_queueJob (s : State) (r : RegionIx) (k : JobKind) (q : Option Port) : (s.queueJob r k q).part = s.part := by
  unfold State.queueJob; split <;> simp
@[simp] theorem State.wipeList_queueJob (s : State) (r : RegionIx) (k : JobKind) (q : Option Port) : (s.queueJob r k q).wipeList = s.wipeList := by
  unfold State.queueJob; split <;> simp
@[simp] theorem State.swept_queueJob (s : State) (r : RegionIx) (k : JobKind) (q : Option Port) : (s.queueJob r k q).swept = s.swept := by
  unfold State.queueJob; split <;> simp
@[simp] theorem State.reports_queueJob (s : State) (r : RegionIx) (k : JobKind) (q : Option Port) : (s.queueJob r k q).reports = s.reports := by
  unfold State.queueJob; split <;> simp
@[simp] theorem State.initialPrio_queueJob (s : State) (r : RegionIx) (k : JobKind) (q : Option Port) : (s.queueJob r k q).initialPrio = s.initialPrio := by
  unfold State.queueJob; split <;> simp
@[simp] theorem State.effectivePrio_queueJob (s : State) (r : RegionIx) (k : JobKind) (q : Option Port) : (s.queueJob r k q).effectivePrio = s.effectivePrio := by
  unfold State.queueJob; split <;> simp
@[simp] theorem State.store_queueJob (s : State) (r : RegionIx) (k : JobKind) (q : Option Port) : (s.queueJob r k q).store = s.store := by
  unfold State.queueJob; split <;> simp
@[simp] theorem State.fenceRequests_queueJob (s : State) (r : RegionIx) (k : JobKind) (q : Option Port) : (s.queueJob r k q).fenceRequests = s.fenceRequests := by
  unfold State.queueJob; split <;> simp
@[simp] theorem State.completions_queueJob (s : State) (r : RegionIx) (k : JobKind) (q : Option Port) : (s.queueJob r k q).completions = s.completions := by
  unfold State.queueJob; split <;> simp
@[simp] theorem State.ports_queueJob (s : State) (r : RegionIx) (k : JobKind) (q : Option Port) : (s.queueJob r k q).ports = s.ports := by
  unfold State.queueJob; split <;> simp
@[simp] theorem State.port_queueJob (s : State) (r : RegionIx) (k : JobKind) (q : Option Port) (p : Port) : (s.queueJob r k q).port p = s.port p := by simp [State.port]

end Sys2Proof.Machine
end

