-- ==== Sys2Proof/Laws/Memory.lean ====
section
/-! SUPPORT. The store: reading after writing, and the canonical form, which every write keeps and in
which equal contents are equal lists. -/

namespace Sys2Proof.Machine

/-! ### One byte -/

theorem Memory.wfFrom_cons {lo k : Nat} {b : Byte} {m : Memory} :
    Memory.wfFrom lo ((k, b) :: m) = true ↔
      lo ≤ k ∧ k < 131072 ∧ b ≠ Config.unlistedByte ∧ Memory.wfFrom (k + 1) m = true := by
  simp [Memory.wfFrom, and_assoc]

theorem Memory.wfFrom_mono {lo lo' : Nat} {m : Memory} (h : lo' ≤ lo) (hm : Memory.wfFrom lo m = true) :
    Memory.wfFrom lo' m = true := by
  cases m with
  | nil => rfl
  | cons c m =>
    obtain ⟨k, b⟩ := c
    rw [Memory.wfFrom_cons] at hm ⊢
    exact ⟨Nat.le_trans h hm.1, hm.2⟩

/-- Below its first address a canonical list lists nothing. -/
theorem Memory.readByte_below {lo a : Nat} {m : Memory} (hm : Memory.wfFrom lo m = true) (h : a < lo) :
    m.readByte a = Config.unlistedByte := by
  induction m generalizing lo with
  | nil => rfl
  | cons c m ih =>
    obtain ⟨k, b⟩ := c
    rw [Memory.wfFrom_cons] at hm
    have hne : k ≠ a := by omega
    simp only [Memory.readByte, hne, if_false]
    exact ih hm.2.2.2 (by omega)

theorem Memory.enter_wfFrom {lo a : Nat} {b : Byte} {m : Memory} (hm : Memory.wfFrom (a + 1) m = true)
    (h : lo ≤ a) (ha : a < 131072) : Memory.wfFrom lo (Memory.enter a b m) = true := by
  unfold Memory.enter
  split
  · exact Memory.wfFrom_mono (by omega) hm
  · rw [Memory.wfFrom_cons]; exact ⟨h, ha, by assumption, hm⟩

theorem Memory.readByte_enter {a c : Nat} {b : Byte} {m : Memory} (hm : Memory.wfFrom (a + 1) m = true) :
    (Memory.enter a b m).readByte c = if c = a then b else m.readByte c := by
  unfold Memory.enter
  by_cases hc : c = a
  · subst hc
    split
    · next h => rw [Memory.readByte_below hm (by omega)]; simp [h]
    · simp [Memory.readByte]
  · have : a ≠ c := fun h => hc h.symm
    rw [if_neg hc]
    split
    · rfl
    · simp [Memory.readByte, this]

/-- A write inside the store keeps the canonical form. -/
theorem Memory.writeByte_wfFrom {lo a : Nat} {b : Byte} {m : Memory} (hm : Memory.wfFrom lo m = true)
    (h : lo ≤ a) (ha : a < 131072) : Memory.wfFrom lo (m.writeByte a b) = true := by
  induction m generalizing lo with
  | nil => exact Memory.enter_wfFrom rfl h ha
  | cons c m ih =>
    obtain ⟨k, c⟩ := c
    have hm' := Memory.wfFrom_cons.mp hm
    unfold Memory.writeByte
    split
    · next hk =>
      exact Memory.enter_wfFrom (Memory.wfFrom_cons.mpr ⟨by omega, hm'.2⟩) h ha
    · split
      · next hk => subst hk; exact Memory.enter_wfFrom hm'.2.2.2 h ha
      · rw [Memory.wfFrom_cons]
        exact ⟨hm'.1, hm'.2.1, hm'.2.2.1, ih hm'.2.2.2 (by omega)⟩

theorem Memory.readByte_writeByte_from {lo a c : Nat} {b : Byte} {m : Memory}
    (hm : Memory.wfFrom lo m = true) :
    (m.writeByte a b).readByte c = if c = a then b else m.readByte c := by
  induction m generalizing lo with
  | nil => exact Memory.readByte_enter rfl
  | cons x m ih =>
    obtain ⟨k, x⟩ := x
    have hm' := Memory.wfFrom_cons.mp hm
    unfold Memory.writeByte
    split
    · next hk => exact Memory.readByte_enter (Memory.wfFrom_cons.mpr ⟨by omega, hm'.2⟩)
    · split
      · next hk =>
        subst hk
        rw [Memory.readByte_enter hm'.2.2.2]
        by_cases hc : c = a
        · simp [hc]
        · have : a ≠ c := fun h => hc h.symm
          simp [Memory.readByte, hc, this]
      · next hlt hne =>
        simp only [Memory.readByte]
        by_cases hkc : k = c
        · subst hkc; simp [Ne.symm hne]
        · simp only [hkc, if_false]; exact ih hm'.2.2.2

/-- Reading after a write: the byte written at its address, every other byte as before. -/
theorem Memory.readByte_writeByte {a c : Nat} {b : Byte} {m : Memory} (hm : m.wf = true) :
    (m.writeByte a b).readByte c = if c = a then b else m.readByte c :=
  Memory.readByte_writeByte_from hm

theorem Memory.writeByte_wf {a : Nat} {b : Byte} {m : Memory} (hm : m.wf = true) (ha : a < 131072) :
    (m.writeByte a b).wf = true := Memory.writeByte_wfFrom hm (Nat.zero_le a) ha

/-! ### One word -/

theorem byteAddr_lt (w : StoreAddr) {i : Nat} (h : i < 4) : byteAddr w i < 131072 := by
  have := w.isLt; unfold byteAddr; omega

theorem Memory.writeLane_wf {m : Memory} (w : StoreAddr) (be : Enables) (v : Word) {i : Nat} (h : i < 4)
    (hm : m.wf = true) : (m.writeLane w be v i).wf = true := by
  unfold Memory.writeLane
  split
  · exact Memory.writeByte_wf hm (byteAddr_lt w h)
  · exact hm

theorem Memory.readByte_writeLane {m : Memory} (w : StoreAddr) (be : Enables) (v : Word) (i c : Nat)
    (hm : m.wf = true) :
    (m.writeLane w be v i).readByte c =
      if c = byteAddr w i ∧ be.getLsbD i = true then lane v i else m.readByte c := by
  unfold Memory.writeLane
  split
  · next h => rw [Memory.readByte_writeByte hm]; simp [h]
  · next h => simp [h]

theorem Memory.writeWord_eq (m : Memory) (w : StoreAddr) (be : Enables) (v : Word) :
    m.writeWord w be v =
      (((m.writeLane w be v 0).writeLane w be v 1).writeLane w be v 2).writeLane w be v 3 := rfl

/-- A landing keeps the canonical form. -/
theorem Memory.writeWord_wf {m : Memory} (w : StoreAddr) (be : Enables) (v : Word) (hm : m.wf = true) :
    (m.writeWord w be v).wf = true := by
  rw [Memory.writeWord_eq]
  exact Memory.writeLane_wf w be v (by omega) (Memory.writeLane_wf w be v (by omega)
    (Memory.writeLane_wf w be v (by omega) (Memory.writeLane_wf w be v (by omega) hm)))

/-- Reading after a landing: the enabled lanes of the word take the data's lanes, every other byte is as
before (R1). -/
theorem Memory.readByte_writeWord {m : Memory} (w : StoreAddr) (be : Enables) (v : Word) (a : Nat)
    (hm : m.wf = true) :
    (m.writeWord w be v).readByte a =
      if a / 4 = w.toNat ∧ be.getLsbD (a % 4) = true then lane v (a % 4) else m.readByte a := by
  have h0 := Memory.writeLane_wf w be v (i := 0) (by omega) hm
  have h1 := Memory.writeLane_wf w be v (i := 1) (by omega) h0
  have h2 := Memory.writeLane_wf w be v (i := 2) (by omega) h1
  rw [Memory.writeWord_eq, Memory.readByte_writeLane _ _ _ _ _ h2, Memory.readByte_writeLane _ _ _ _ _ h1,
    Memory.readByte_writeLane _ _ _ _ _ h0, Memory.readByte_writeLane _ _ _ _ _ hm]
  have lanes : ∀ i, i < 4 → (a = byteAddr w i ↔ a / 4 = w.toNat ∧ a % 4 = i) := by
    intro i hi; unfold byteAddr; omega
  simp only [lanes 0 (by omega), lanes 1 (by omega), lanes 2 (by omega), lanes 3 (by omega)]
  have hr : a % 4 < 4 := Nat.mod_lt _ (by omega)
  by_cases hw : a / 4 = w.toNat
  · simp only [hw, true_and]
    have cases4 : a % 4 = 0 ∨ a % 4 = 1 ∨ a % 4 = 2 ∨ a % 4 = 3 := by omega
    rcases cases4 with h | h | h | h <;> simp [h]
  · simp [hw]

/-! ### Equal contents -/

theorem Memory.ext_from {lo : Nat} {m n : Memory} (hm : Memory.wfFrom lo m = true)
    (hn : Memory.wfFrom lo n = true) (h : ∀ a, m.readByte a = n.readByte a) : m = n := by
  induction m generalizing lo n with
  | nil =>
    cases n with
    | nil => rfl
    | cons c n =>
      obtain ⟨k, b⟩ := c
      have := h k
      simp only [Memory.readByte, if_true] at this
      exact absurd this.symm (Memory.wfFrom_cons.mp hn).2.2.1
  | cons c m ih =>
    obtain ⟨k, b⟩ := c
    have hm' := Memory.wfFrom_cons.mp hm
    cases n with
    | nil =>
      have := h k
      simp only [Memory.readByte, if_true] at this
      exact absurd this hm'.2.2.1
    | cons d n =>
      obtain ⟨j, x⟩ := d
      have hn' := Memory.wfFrom_cons.mp hn
      have hkj : k = j := by
        rcases Nat.lt_trichotomy k j with hlt | heq | hgt
        · have hk := h k
          rw [Memory.readByte_below (lo := j) (Memory.wfFrom_cons.mpr ⟨Nat.le_refl _, hn'.2⟩) hlt] at hk
          simp only [Memory.readByte, if_true] at hk
          exact absurd hk hm'.2.2.1
        · exact heq
        · have hj := h j
          rw [Memory.readByte_below (lo := k) (Memory.wfFrom_cons.mpr ⟨Nat.le_refl _, hm'.2⟩) hgt] at hj
          simp only [Memory.readByte, if_true] at hj
          exact absurd hj.symm hn'.2.2.1
      subst hkj
      have hb : b = x := by simpa [Memory.readByte] using h k
      subst hb
      refine congrArg _ (ih hm'.2.2.2 hn'.2.2.2 fun a => ?_)
      by_cases ha : k = a
      · subst ha
        rw [Memory.readByte_below hm'.2.2.2 (by omega), Memory.readByte_below hn'.2.2.2 (by omega)]
      · simpa [Memory.readByte, ha] using h a

/-- In canonical form equal contents are equal data. -/
theorem Memory.ext {m n : Memory} (hm : m.wf = true) (hn : n.wf = true)
    (h : ∀ a, m.readByte a = n.readByte a) : m = n := Memory.ext_from hm hn h

/-! ### The state's store -/

theorem State.landWrite_wf {s : State} (w : StoreWrite) (h : s.store.wf = true) :
    (s.landWrite w).store.wf = true := Memory.writeWord_wf _ _ _ h

theorem State.zeroWord_wf {s : State} (n : Nat) (h : s.store.wf = true) :
    (s.zeroWord n).store.wf = true := Memory.writeWord_wf _ _ _ h

theorem State.store_zeroWord (s : State) (n : Nat) :
    (s.zeroWord n).store = s.store.writeWord (BitVec.ofNat 15 n) 15#4 0#32 := by
  simp only [State.zeroWord, State.store_landWrite]

/-- A word of a wipe: its four bytes read 0, every other byte as before (R96, R105). -/
theorem State.readByte_zeroWord {s : State} {n : Nat} (hn : n < 32768) (a : Nat) (h : s.store.wf = true) :
    (s.zeroWord n).store.readByte a = if a / 4 = n then 0#8 else s.store.readByte a := by
  have hlanes : ∀ i, i < 4 → (15#4).getLsbD i = true ∧ lane 0#32 i = 0#8 := by decide
  have hr : a % 4 < 4 := Nat.mod_lt _ (by omega)
  have hw : (BitVec.ofNat 15 n).toNat = n := by simp; omega
  rw [State.store_zeroWord, Memory.readByte_writeWord _ _ _ _ h, hw]
  simp [(hlanes _ hr).1, (hlanes _ hr).2]

/-- The store after reset is in canonical form. -/
theorem reset_store_wf : State.reset.store.wf = true := rfl

end Sys2Proof.Machine
end

