-- ==== Sys2Proof/Laws/Operations.lean ====
section
/-! SUPPORT. One lemma for each shared operation that says what it can do: a host's access, the launch of a
command, an offered record, a store slot; and the device events, which never stop. -/

namespace Sys2Proof.Machine

/-! ### A host's access -/

/-- A well-formed access on a port that takes it has its effect at once. -/
theorem hostAccess_of_takes {s : State} {p : Port} {c : Instr} {take : State → State} (hc : c.wf = true)
    (h : s.takes p) : hostAccess p c s take = .next (take s) := by
  simp [hostAccess, hc, h.1, h.2]

/-- An access that is answered by a next state was taken, or waits for a bus that is not served, or is the
one a reset overtook. -/
theorem hostAccess_next {s t : State} {p : Port} {c : Instr} {take : State → State}
    (h : hostAccess p c s take = .next t) :
    c.wf = true ∧ ((s.takes p ∧ t = take s) ∨ (s.served p = false ∧
      (((s.port p).overtaken = some c ∧ t = s.updPort p fun i => { i with overtaken := none }) ∨
        ((s.port p).waiting = none ∧ t = s.updPort p fun i => { i with waiting := some c })))) := by
  unfold hostAccess at h
  split at h
  · cases h
  · next hc =>
    refine ⟨by simpa using hc, ?_⟩
    split at h
    · next hs =>
      split at h
      · cases h
      · next hb => exact .inl ⟨⟨hs, by simpa using hb⟩, (Host.Outcome.next.inj h).symm⟩
    · next hs =>
      refine .inr ⟨by simpa using hs, ?_⟩
      split at h
      · next ho => exact .inl ⟨ho, (Host.Outcome.next.inj h).symm⟩
      · split at h
        · cases h
        · next hw => exact .inr ⟨by simpa using hw, (Host.Outcome.next.inj h).symm⟩

/-! ### The launch of a command -/

/-- A launch is the word into CMD, the decision, and the answer (R175). -/
theorem launch_eq (p : Port) (word : Word) (decide : State → Decision) (s : State) :
    launch p word decide s =
      (decide (s.launched p word)).1.answered p (decide (s.launched p word)).2.1.code
        (decide (s.launched p word)).2.2 := rfl

/-- A refused command leaves its answer and nothing else (R12, R25). -/
theorem launch_of_refuse {p : Port} {word : Word} {decide : State → Decision} {s : State} {x : Result}
    (h : decide (s.launched p word) = refuse (s.launched p word) x) :
    launch p word decide s = s.replied p word x.code 0#32 := by
  rw [launch_eq, h]
  simp [refuse, State.launched, State.answered, State.replied]

@[simp] theorem State.launched_part (s : State) (p : Port) (w : Word) : (s.launched p w).part = s.part := rfl

@[simp] theorem State.launched_slot (s : State) (p : Port) (w : Word) (r : RegionIx) :
    (s.launched p w).slot r = s.slot r := rfl

theorem State.launched_port (s : State) (p q : Port) (w : Word) :
    (s.launched p w).port q = if q = p then { s.port p with cmd := w } else s.port q :=
  State.port_updPort _ _ _ _

@[simp] theorem State.launched_port_state (s : State) (p q : Port) (w : Word) :
    ((s.launched p w).port q).state = (s.port q).state := by
  rw [State.launched_port]; split <;> simp_all

/-- The checks STARTING and NOT_ATTACHED pass. -/
theorem State.whenAttached_pass {s : State} {p : Port} {k : Decision} (h1 : s.part = .ready)
    (h2 : (s.port p).state = .attached) : s.whenAttached p k = k := by
  simp [State.whenAttached, h1, h2]

theorem State.whenAttached_starting {s : State} {p : Port} {k : Decision} (h : s.part = .starting) :
    s.whenAttached p k = refuse s .starting := by simp [State.whenAttached, h]

theorem State.whenAttached_detached {s : State} {p : Port} {k : Decision} (h1 : s.part = .ready)
    (h2 : (s.port p).state = .detached) : s.whenAttached p k = refuse s .notAttached := by
  simp [State.whenAttached, h1, h2]

theorem State.onRegion_pass {s : State} {p : Port} {r : RegionIx} {g : Region} {k : Region → Decision}
    (h1 : s.part = .ready) (h2 : (s.port p).state = .attached) (h3 : s.slot r = some g) :
    s.onRegion p r k = k g := by
  simp [State.onRegion, State.whenAttached_pass h1 h2, h3]

theorem State.asSupervisor_pass {s : State} {p : Port} {k : Decision} (h1 : s.part = .ready)
    (h2 : (s.port p).state = .attached) (h3 : s.supervisor = some p) : s.asSupervisor p k = k := by
  simp [State.asSupervisor, State.whenAttached_pass h1 h2, h3]

/-! ### Records -/

theorem appendDevice_marker {q : List Record} (x : Record) (h : q.any Record.isOverflow = true) :
    appendDevice q x = q.map Record.countLoss := by simp [appendDevice, h]

theorem appendDevice_room {q : List Record} (x : Record) (h : q.any Record.isOverflow = false)
    (hl : q.length ≤ 14) : appendDevice q x = q ++ [x] := by
  simp [appendDevice, h, Config.deviceRecordRoom, hl]

theorem appendDevice_full {q : List Record} (x : Record) (h : q.any Record.isOverflow = false)
    (hl : 14 < q.length) : appendDevice q x = q ++ [.overflow 1#16] := by
  have : ¬ q.length ≤ 14 := by omega
  simp [appendDevice, h, Config.deviceRecordRoom, this]

@[simp] theorem Record.isOverflow_countLoss (x : Record) : x.countLoss.isOverflow = x.isOverflow := by
  cases x <;> rfl

/-- A record that is no marker is appended or counted with the queue's law kept (R141, R144). -/
theorem appendDevice_law {q : List Record} {x : Record} (hx : x.isOverflow = false) (h16 : q.length ≤ 16)
    (h1 : (q.filter Record.isOverflow).length ≤ 1)
    (h : q.length = 16 → q.any Record.isOverflow = true) :
    (appendDevice q x).length ≤ 16 ∧ ((appendDevice q x).filter Record.isOverflow).length ≤ 1 ∧
      ((appendDevice q x).length = 16 → (appendDevice q x).any Record.isOverflow = true) := by
  by_cases hm : q.any Record.isOverflow = true
  · rw [appendDevice_marker x hm]
    refine ⟨by simpa using h16, ?_, fun _ => ?_⟩
    · rw [List.filter_map, List.length_map]
      simpa [Function.comp_def] using h1
    · simpa [List.any_map, Function.comp_def] using hm
  · have hm' : q.any Record.isOverflow = false := by simpa using hm
    have hz : q.filter Record.isOverflow = [] := by
      rw [List.filter_eq_nil_iff]; intro a ha
      have := List.any_eq_false.mp hm' a ha
      simpa using this
    have hl : q.length ≠ 16 := fun e => hm (h e)
    by_cases hr : q.length ≤ 14
    · rw [appendDevice_room x hm' hr]
      refine ⟨by simp; omega, by simp [List.filter_append, hz, hx], fun e => ?_⟩
      simp at e; omega
    · rw [appendDevice_full x hm' (by omega)]
      refine ⟨by simp; omega, by rw [List.filter_append, hz]; exact Nat.le_refl 1, fun _ => ?_⟩
      simp [List.any_append, Record.isOverflow]

theorem State.offer_of_attached {s : State} {p : Port} (x : Record) (h : (s.port p).state = .attached) :
    s.offer p x = s.updPort p fun i => { i with notes := appendDevice i.notes x } := by
  simp [State.offer, State.updPort, h]

theorem State.offer_of_detached {s : State} {p : Port} (x : Record) (h : (s.port p).state = .detached) :
    s.offer p x = s := by
  simp [State.offer, State.updPort, State.setPort, State.port] at *
  rw [h]; simp

/-- An offered record changes at most its port's notification queue. -/
theorem State.port_offer (s : State) (p q : Port) (x : Record) :
    (s.offer p x).port q = { s.port q with notes := ((s.offer p x).port q).notes } := by
  by_cases h : q = p
  · subst h
    cases hs : (s.port q).state
    · rw [State.offer_of_detached x hs]
    · rw [State.offer_of_attached x hs]; simp
  · simp [State.offer, h]

/-! ### A store slot -/

/-- A slot that is given ages the priorities and changes nothing else (R139). -/
theorem State.grantSlot_some {s t : State} {c : Client} (h : s.grantSlot c = some t) :
    s.chosen = some c ∧
      t = { s with effectivePrio := ⟨.ofFun fun p => s.aged c (.port p), s.aged c .engine⟩ } := by
  unfold State.grantSlot at h
  split at h
  · next hc => exact ⟨hc, (Option.some.inj h).symm⟩
  · cases h

/-- What happens in a slot: nothing if it is another client's, the client's operation otherwise. -/
theorem State.inSlot_cases (s : State) (c : Client) (k : State → State) :
    s.inSlot c k = s ∨ ∃ t, s.grantSlot c = some t ∧ s.inSlot c k = k t := by
  unfold State.inSlot
  split
  · exact .inl rfl
  · next t h => exact .inr ⟨t, h, rfl⟩

theorem State.inSlot_granted {s t : State} {c : Client} (k : State → State) (h : s.grantSlot c = some t) :
    s.inSlot c k = k t := by simp [State.inSlot, h]

/-! ### Commands that never stop -/

/-- A command that no host gives is answered by a next state in every state. -/
theorem exec_device_next (c : Instr) (s : State) (h : encodeBus c = none) : ∃ t, exec c s = .next t := by
  cases c <;> first | exact ⟨_, rfl⟩ | (rename_i f _; cases f <;> simp [encodeBus] at h) | simp [encodeBus] at h

/-! ### Runs -/

/-- What every step keeps holds after every run. -/
theorem State.after_keeps {P : State → Prop} (hP : ∀ s t, P s → step s = .next t → P t) {n : Nat}
    {s t : State} (hs : P s) (h : s.after n = some t) : P t := by
  induction n generalizing s with
  | zero => simp only [State.after, Option.some.injEq] at h; exact h ▸ hs
  | succ n ih =>
    unfold State.after at h
    split at h
    · next u hu => exact ih (hP s u hs hu) h
    · cases h
    · cases h

end Sys2Proof.Machine
end

