-- ==== Sys2Proof/Laws/LockEngine.lean ====
section
/-! SUPPORT. What the lock engine's operations leave alone: an operation on one region touches that slot,
the notification queues, fence requests and the engine's jobs, and nothing else of the device. -/

namespace Sys2Proof.Machine

/-- `t` is `s` but for slots, notification queues, fence requests and the jobs of the engine (queued, in progress,
starts reported). -/
structure State.LockEvent (s t : State) : Prop where
  pending : t.pending = s.pending
  rstLow : t.rstLow = s.rstLow
  supervisor : t.supervisor = s.supervisor
  divider : t.divider = s.divider
  part : t.part = s.part
  wipeList : t.wipeList = s.wipeList
  swept : t.swept = s.swept
  reports : t.reports = s.reports
  initialPrio : t.initialPrio = s.initialPrio
  effectivePrio : t.effectivePrio = s.effectivePrio
  store : t.store = s.store
  completions : t.completions = s.completions
  port : ∀ p, t.port p = { s.port p with notes := (t.port p).notes }

/-- `t` is `s` but for slot `r`, notification queues, fence requests and the jobs of the engine. -/
structure State.RegionEvent (s t : State) (r : RegionIx) : Prop extends State.LockEvent s t where
  slot : ∀ q, q ≠ r → t.slot q = s.slot q

theorem State.LockEvent.refl (s : State) : s.LockEvent s :=
  ⟨rfl, rfl, rfl, rfl, rfl, rfl, rfl, rfl, rfl, rfl, rfl, rfl, fun _ => rfl⟩

theorem State.LockEvent.trans {s t u : State} (h : s.LockEvent t) (k : t.LockEvent u) : s.LockEvent u where
  pending := k.pending.trans h.pending
  rstLow := k.rstLow.trans h.rstLow
  supervisor := k.supervisor.trans h.supervisor
  divider := k.divider.trans h.divider
  part := k.part.trans h.part
  wipeList := k.wipeList.trans h.wipeList
  swept := k.swept.trans h.swept
  reports := k.reports.trans h.reports
  initialPrio := k.initialPrio.trans h.initialPrio
  effectivePrio := k.effectivePrio.trans h.effectivePrio
  store := k.store.trans h.store
  completions := k.completions.trans h.completions
  port p := by rw [k.port p, h.port p]

theorem State.RegionEvent.refl (s : State) (r : RegionIx) : s.RegionEvent s r :=
  ⟨State.LockEvent.refl s, fun _ _ => rfl⟩

theorem State.RegionEvent.trans {s t u : State} {r : RegionIx} (h : s.RegionEvent t r)
    (k : t.RegionEvent u r) : s.RegionEvent u r :=
  ⟨h.toLockEvent.trans k.toLockEvent, fun q hq => (k.slot q hq).trans (h.slot q hq)⟩

/-- Port states, buses and write paths are untouched by an event of the lock engine. -/
theorem State.LockEvent.port_state {s t : State} (h : s.LockEvent t) (p : Port) :
    (t.port p).state = (s.port p).state := by rw [h.port p]

/-! ### Single updates -/

theorem State.regionEvent_setSlot (s : State) (r : RegionIx) (x : Option Region) :
    s.RegionEvent (s.setSlot r x) r :=
  ⟨⟨rfl, rfl, rfl, rfl, rfl, rfl, rfl, rfl, rfl, rfl, rfl, rfl, fun _ => rfl⟩,
    fun _ h => State.slot_setSlot_of_ne s x h⟩

theorem State.regionEvent_offer (s : State) (r : RegionIx) (p : Port) (x : Record) :
    s.RegionEvent (s.offer p x) r :=
  ⟨⟨rfl, rfl, rfl, rfl, rfl, rfl, rfl, rfl, rfl, rfl, rfl, rfl, fun q => State.port_offer s p q x⟩,
    fun _ _ => rfl⟩

theorem State.regionEvent_sendFence (s : State) (r q : RegionIx) (p : Port) :
    s.RegionEvent (s.sendFence q p) r :=
  ⟨⟨rfl, rfl, rfl, rfl, rfl, rfl, rfl, rfl, rfl, rfl, rfl, rfl, fun _ => rfl⟩, fun _ _ => rfl⟩

/-! ### The engine's jobs -/

/-- The start of a job whose region is defined (R95). -/
theorem State.startJob_of_slot {s : State} {j : Job} {g : Region} (rest : List Job) (h : s.slot j.region = some g) :
    s.startJob j rest = { s with
      jobQueue := rest, current := some ⟨j, g.extent, 0, crcStart⟩, starts := s.starts ++ [j.region] } := by
  simp [State.startJob, h]

theorem State.engineIdle_iff (s : State) : s.engineIdle = true ↔ s.part = .ready ∧ s.current = none := by
  simp [State.engineIdle]

/-- What an engine can do with the head of its queue: start it, or nothing (R94, R95). -/
theorem State.startHead_cases (s : State) :
    s.startHead = s ∨ ∃ j rest, s.jobQueue = j :: rest ∧ s.part = .ready ∧ s.current = none ∧
      s.startHead = s.startJob j rest := by
  unfold State.startHead
  split
  · exact .inl rfl
  · next j rest h =>
    split
    · next hi =>
      obtain ⟨h1, h2⟩ := s.engineIdle_iff.mp hi
      exact .inr ⟨j, rest, h, h1, h2, rfl⟩
    · exact .inl rfl

/-- With an empty queue, or an engine that is not IDLE, there is nothing to start. -/
theorem State.startHead_of_engineLaw {s : State} (h : s.engineLaw) : s.startHead = s := by
  rcases s.startHead_cases with h' | ⟨j, rest, hq, hp, hc, _⟩
  · exact h'
  · exact absurd (h hp hc) (by simp [hq])

/-- What the lock engine can do with the starts reported: take the oldest, or nothing (R95). -/
theorem State.takeStart_cases (s : State) :
    (s.starts = [] ∧ s.takeStart = s) ∨ ∃ r rest, s.starts = r :: rest ∧
      s.takeStart = { s.updRegion r (fun g => { g with job := g.job.map JobMark.started }) with starts := rest } := by
  unfold State.takeStart
  split
  · next h => exact .inl ⟨h, rfl⟩
  · next r rest h => exact .inr ⟨r, rest, h, rfl⟩

/-- With no start reported and an engine that starts nothing, a job start does nothing. -/
theorem State.startHead_takeStart_of_nothing {s : State} (h : s.engineLaw) (hs : s.starts = []) :
    s.startHead.takeStart = s := by
  rw [State.startHead_of_engineLaw h]
  simp [State.takeStart, hs]

/-- A job queued for a defined region joins the queue, or is the one an IDLE engine with an empty queue
starts (R93 to R95, R101). -/
theorem State.queueJob_of_slot {s : State} {r : RegionIx} {g : Region} (k : JobKind) (q : Option Port)
    (h : s.slot r = some g) : s.queueJob r k q = s.withJob r g k q := by
  have hu : s.updRegion r (fun g => { g with job := some ⟨k, false, q⟩ }) =
      s.setSlot r (some { g with job := some ⟨k, false, q⟩ }) := by simp [State.updRegion, h]
  unfold State.queueJob State.withJob
  by_cases hq : s.jobQueue = []
  · by_cases hi : s.part = .ready ∧ s.current = none
    · have hf : s.engineFree := ⟨hi.1, hi.2, hq⟩
      have hs : s.enqueueJob r k q = { s.setSlot r (some { g with job := some ⟨k, false, q⟩ }) with
          jobQueue := [⟨k, r, q⟩] } := by simp [State.enqueueJob, hu, hq]
      have hslot : (s.enqueueJob r k q).slot r = some { g with job := some ⟨k, false, q⟩ } := by
        rw [hs]; exact State.slot_setSlot_self _ _ _
      have hidle : (s.enqueueJob r k q).engineIdle = true := by simp [State.engineIdle_iff, hi]
      rw [if_pos (by simp [hq]), if_pos hf]
      have : (s.enqueueJob r k q).startHead = (s.enqueueJob r k q).startJob ⟨k, r, q⟩ [] := by
        unfold State.startHead; simp [hq, hidle]
      rw [this, State.startJob_of_slot (g := { g with job := some ⟨k, false, q⟩ }) [] hslot, hs]
      simp [crcStart, hq]
    · have hf : ¬ s.engineFree := fun f => hi ⟨f.1, f.2.1⟩
      rw [if_pos (by simp [hq]), if_neg hf]
      have : (s.enqueueJob r k q).startHead = s.enqueueJob r k q := by
        rcases (s.enqueueJob r k q).startHead_cases with h' | ⟨j, rest, _, hp, hc, _⟩
        · exact h'
        · exact absurd ⟨by simpa using hp, by simpa using hc⟩ hi
      rw [this, State.enqueueJob, hu]
  · have hf : ¬ s.engineFree := fun f => hq f.2.2
    rw [if_neg (by simpa using hq), if_neg hf, State.enqueueJob, hu]

theorem State.slot_queueJob_of_ne (s : State) {r x : RegionIx} (k : JobKind) (q : Option Port) (h : x ≠ r) :
    (s.queueJob r k q).slot x = s.slot x := by
  have he : (s.enqueueJob r k q).slot x = s.slot x := State.slot_setSlot_of_ne _ _ h
  unfold State.queueJob
  split <;> simp [he]

theorem State.regionEvent_queueJob (s : State) (r : RegionIx) (k : JobKind) (q : Option Port) :
    s.RegionEvent (s.queueJob r k q) r :=
  ⟨by constructor <;> simp, fun _ h => State.slot_queueJob_of_ne s k q h⟩

/-! ### The shared operations -/

/-- Offering records one after another. -/
theorem State.regionEvent_foldl {α : Type} {r : RegionIx} (f : State → α → State)
    (hf : ∀ (s : State) (a : α), s.RegionEvent (f s a) r) (l : List α) (s : State) : s.RegionEvent (l.foldl f s) r := by
  induction l generalizing s with
  | nil => exact State.RegionEvent.refl s r
  | cons a l ih => exact (hf s a).trans (ih (f s a))

theorem State.regionEvent_grantPass (s : State) (r : RegionIx) : s.RegionEvent (s.grantPass r) r := by
  unfold State.grantPass
  split
  · exact State.RegionEvent.refl s r
  · exact (State.regionEvent_setSlot s r _).trans
      (State.regionEvent_foldl _ (fun t e => State.regionEvent_offer t r (WaitEntry.port e) _) _ _)

theorem State.regionEvent_autoDigest (s : State) (r : RegionIx) (g : Region) (e : EndedHold) :
    s.RegionEvent (s.autoDigest r g e) r := by
  unfold State.autoDigest
  split
  · exact State.regionEvent_queueJob s r _ _
  · exact State.RegionEvent.refl s r

theorem State.regionEvent_settle (s : State) (r : RegionIx) (g : Region) (e : EndedHold) :
    s.RegionEvent (s.settle r g e) r :=
  ((State.regionEvent_setSlot s r _).trans (State.regionEvent_autoDigest _ r g e)).trans
    (State.regionEvent_grantPass _ r)

theorem State.regionEvent_startWipe (s : State) (r : RegionIx) (g : Region) (q : Port) :
    s.RegionEvent (s.startWipe r g q) r :=
  (State.regionEvent_setSlot s r _).trans (State.regionEvent_queueJob _ r _ _)

theorem State.regionEvent_endDrain (s : State) (r : RegionIx) (g : Region) (d : Drain) :
    s.RegionEvent (s.endDrain r g d) r := by
  unfold State.endDrain
  split
  · exact State.regionEvent_settle s r g _
  · exact (State.regionEvent_setSlot s r _).trans (State.regionEvent_grantPass _ r)
  · exact State.regionEvent_startWipe s r g _
  · exact State.regionEvent_startWipe s r g _

/-- The decision on a drain's end: the region drains and the drain ends, or nothing happens (R67). -/
theorem State.decideDrain_cases (s : State) (r : RegionIx) :
    s.decideDrain r = s ∨ ∃ g d, s.slot r = some g ∧ g.state = .draining d ∧ g.drainOver d = true ∧
      s.decideDrain r = s.endDrain r g d := by
  unfold State.decideDrain
  split
  · exact .inl rfl
  · next g hg =>
    split
    · next d hd =>
      split
      · next ho => exact .inr ⟨g, d, hg, hd, ho, rfl⟩
      · exact .inl rfl
    all_goals exact .inl rfl

theorem State.regionEvent_decideDrain (s : State) (r : RegionIx) : s.RegionEvent (s.decideDrain r) r := by
  rcases State.decideDrain_cases s r with h | ⟨g, d, _, _, _, h⟩ <;> rw [h]
  · exact State.RegionEvent.refl s r
  · exact State.regionEvent_endDrain s r g d

/-- The end of a hold: there is none, or a SHARED one is removed, or an EXCLUSIVE one drains with a fence
request to its port (R38, R39). -/
theorem State.endHold_cases (s : State) (r : RegionIx) (p : Port) (revoked : Bool) :
    s.endHold r p revoked = s ∨
    (∃ g h, s.slot r = some g ∧ g.holders.get p = some h ∧ h.mode = .shared ∧
      s.endHold r p revoked = s.setSlot r (some (g.endShared p))) ∨
    ∃ g h, s.slot r = some g ∧ g.holders.get p = some h ∧ h.mode = .exclusive ∧
      s.endHold r p revoked =
        (s.setSlot r (some (g.endExclusive p ⟨h.wrote, revoked⟩ (onlyPort p)))).sendFence r p := by
  unfold State.endHold
  split
  · exact .inl rfl
  · next g hg =>
    split
    · exact .inl rfl
    · next h hh =>
      split
      · next hm => exact .inr (.inl ⟨g, h, hg, hh, hm, rfl⟩)
      · next hm => exact .inr (.inr ⟨g, h, hg, hh, hm, rfl⟩)

theorem State.regionEvent_endHold (s : State) (r : RegionIx) (p : Port) (revoked : Bool) :
    s.RegionEvent (s.endHold r p revoked) r := by
  rcases State.endHold_cases s r p revoked with h | ⟨g, x, _, _, _, h⟩ | ⟨g, x, _, _, _, h⟩ <;> rw [h]
  · exact State.RegionEvent.refl s r
  · exact State.regionEvent_setSlot s r _
  · exact (State.regionEvent_setSlot s r _).trans (State.regionEvent_sendFence _ r r p)

theorem State.regionEvent_leaveRegion (s : State) (p : Port) (r : RegionIx) :
    s.RegionEvent (s.leaveRegion p r) r := by
  unfold State.leaveRegion
  split
  · exact State.RegionEvent.refl s r
  · split
    · exact (State.regionEvent_endHold s r p false).trans (State.regionEvent_grantPass _ r)
    · split
      · exact (State.regionEvent_setSlot s r _).trans (State.regionEvent_grantPass _ r)
      · exact State.RegionEvent.refl s r

theorem State.regionEvent_cutRegion (s : State) (p : Port) (r : RegionIx) :
    s.RegionEvent (s.cutRegion p r) r := by
  unfold State.cutRegion
  split
  · exact State.RegionEvent.refl s r
  · split
    · split
      · exact (State.regionEvent_setSlot s r _).trans (State.regionEvent_grantPass _ r)
      · exact (State.regionEvent_setSlot s r _).trans (State.regionEvent_decideDrain _ r)
    · split
      · exact (State.regionEvent_setSlot s r _).trans (State.regionEvent_grantPass _ r)
      · exact State.RegionEvent.refl s r

/-! ### The tick -/

theorem State.regionEvent_tickHold (s : State) (r : RegionIx) (p : Port) :
    s.RegionEvent (s.tickHold r p) r := by
  unfold State.tickHold
  split
  · exact State.RegionEvent.refl s r
  · split
    · exact State.RegionEvent.refl s r
    · split
      · exact (State.regionEvent_setSlot s r _).trans (State.regionEvent_offer _ r p _)
      · exact State.regionEvent_setSlot s r _

theorem State.regionEvent_expireHold (s : State) (r : RegionIx) (p : Port) :
    s.RegionEvent (s.expireHold r p) r := by
  unfold State.expireHold
  split
  · exact State.RegionEvent.refl s r
  · split
    · exact State.RegionEvent.refl s r
    · split
      · exact (State.regionEvent_offer s r p _).trans (State.regionEvent_endHold _ r p true)
      · exact State.RegionEvent.refl s r

theorem State.regionEvent_expireRegion (s : State) (r : RegionIx) : s.RegionEvent (s.expireRegion r) r := by
  unfold State.expireRegion
  split
  · exact State.RegionEvent.refl s r
  · split
    · exact (State.regionEvent_foldl _ (fun t p => State.regionEvent_expireHold t r p) _ _).trans
        (State.regionEvent_grantPass _ r)
    · exact State.RegionEvent.refl s r

theorem State.regionEvent_tickRegion (s : State) (r : RegionIx) : s.RegionEvent (s.tickRegion r) r :=
  (State.regionEvent_foldl _ (fun t p => State.regionEvent_tickHold t r p) _ _).trans
    (State.regionEvent_expireRegion _ r)

/-! ### Region by region -/

/-- An operation done region by region, each on its own slot: every listed slot is what its own operation
makes of a state in which that slot still stands as at the start, and the others stand (R41, R55, R165). -/
theorem State.foldl_regions {f : State → RegionIx → State} (hf : ∀ (s : State) (r : RegionIx), s.RegionEvent (f s r) r)
    {l : List RegionIx} (hl : l.Nodup) (s : State) :
    s.LockEvent (l.foldl f s) ∧ (∀ r, r ∉ l → (l.foldl f s).slot r = s.slot r) ∧
      ∀ r ∈ l, ∃ t, s.LockEvent t ∧ t.slot r = s.slot r ∧ (l.foldl f s).slot r = (f t r).slot r := by
  induction l generalizing s with
  | nil => exact ⟨State.LockEvent.refl s, fun _ _ => rfl, fun r hr => absurd hr (by simp)⟩
  | cons a l ih =>
    obtain ⟨ha, hl'⟩ := List.nodup_cons.mp hl
    obtain ⟨h1, h2, h3⟩ := ih hl' (f s a)
    refine ⟨(hf s a).toLockEvent.trans h1, fun r hr => ?_, fun r hr => ?_⟩
    · simp only [List.mem_cons, not_or] at hr
      rw [List.foldl_cons, h2 r hr.2, (hf s a).slot r hr.1]
    · rcases List.mem_cons.mp hr with rfl | hr'
      · exact ⟨s, State.LockEvent.refl s, rfl, h2 r ha⟩
      · obtain ⟨t, ht1, ht2, ht3⟩ := h3 r hr'
        have hne : r ≠ a := fun e => ha (e ▸ hr')
        exact ⟨t, (hf s a).toLockEvent.trans ht1, ht2.trans ((hf s a).slot r hne), ht3⟩

/-- A relation between a slot before and after that every region's own operation has, holds of every slot
of an operation done region by region over the whole table. -/
theorem State.foldl_allRegions_slot {f : State → RegionIx → State} (hf : ∀ (s : State) (r : RegionIx), s.RegionEvent (f s r) r)
    (s : State) (r : RegionIx) :
    ∃ t, s.LockEvent t ∧ t.slot r = s.slot r ∧ (allRegions.foldl f s).slot r = (f t r).slot r :=
  (State.foldl_regions hf allRegions_nodup s).2.2 r (mem_allRegions r)

/-- A property of the state that every region's operation keeps is kept by doing it for every region. -/
theorem State.foldl_keeps {α : Type} {P : State → Prop} {f : State → α → State}
    (hf : ∀ s a, P s → P (f s a)) (l : List α) {s : State} (h : P s) : P (l.foldl f s) := by
  induction l generalizing s with
  | nil => exact h
  | cons a l ih => exact ih (hf s a h)

end Sys2Proof.Machine
end

