-- ==== Sys2Proof/Laws/ViewAccess.lean ====
section
/-! SUPPORT. View accesses: a failure as one change of the port's interface, and what the acceptance of a
write leaves alone. -/

namespace Sys2Proof.Machine

/-! ### Failures -/

theorem FaultRecord.again_eq (f : FaultRecord) : f.again = FaultRecord.taken (some f) f := by
  simp only [FaultRecord.again, FaultRecord.taken]
  split
  · next h => rw [h]
  · rfl

/-- A recorded failure and the access's completion are one change of the port's interface (R121, R157). -/
theorem State.recordFault_complete (s : State) (p : Port) (k : FaultKind) (dir : Direction) (va : Half)
    (at_ : Option (BitVec 18)) (b : BusResult) :
    (s.recordFault p k dir va at_).complete p b =
      s.updPort p fun i => i.failed ⟨k, dir, va, at_, s.faultRegion at_, 1#8⟩ b := by
  unfold State.recordFault
  split
  · next f hf =>
    simp only [State.complete, State.updPort_updPort]
    simp only [State.updPort, PortIface.failed, hf, FaultRecord.taken, FaultRecord.again]
    congr 2
    split <;> simp_all
  · next hf =>
    simp only [State.complete, State.offer, State.updPort_updPort]
    simp only [State.updPort, PortIface.failed, hf, FaultRecord.taken]
    congr 1
    cases (s.port p).state <;> simp

theorem State.failRead_eq (s : State) (p : Port) (k : FaultKind) (a : BusAddr) (at_ : Option (BitVec 18)) :
    s.failRead p k a at_ =
      s.updPort p fun i => i.failed ⟨k, .read, viewByte a, at_, s.faultRegion at_, 1#8⟩ (.read i.fill) := by
  rw [State.failRead, State.recordFault_complete]; rfl

theorem State.failWrite_eq (s : State) (p : Port) (k : FaultKind) (va : Half) (at_ : Option (BitVec 18)) :
    s.failWrite p k va at_ =
      s.updPort p fun i => i.failed ⟨k, .write, va, at_, s.faultRegion at_, 1#8⟩ .wrote := by
  rw [State.failWrite, State.recordFault_complete]

/-! ### Acceptance -/

theorem Region.noteWrite_keeps (g : Region) (p : Port) :
    g.noteWrite p = { g with holders := (g.noteWrite p).holders } := by
  unfold Region.noteWrite
  split
  · rfl
  · split <;> rfl

theorem State.noteWrite_cases (s : State) (p : Port) (w : StoreAddr) :
    s.noteWrite p w = s ∨ ∃ r, s.noteWrite p w = s.updRegion r fun g => g.noteWrite p := by
  unfold State.noteWrite
  split
  · exact .inl rfl
  · next r _ => exact .inr ⟨r, rfl⟩

@[simp] theorem State.port_noteWrite (s : State) (p q : Port) (w : StoreAddr) :
    (s.noteWrite p w).port q = s.port q := by
  rcases State.noteWrite_cases s p w with h | ⟨r, h⟩ <;> rw [h]; simp

@[simp] theorem State.store_noteWrite (s : State) (p : Port) (w : StoreAddr) :
    (s.noteWrite p w).store = s.store := by
  rcases State.noteWrite_cases s p w with h | ⟨r, h⟩ <;> rw [h]; simp

/-- The acceptance of a posted write: dropped with its fault, or joined to the queue's tail (R128). -/
theorem State.acceptPosted_eq (s : State) (p : Port) (va : Half) (w : StoreWrite) :
    s.acceptPosted p va w = match s.check p .write w.addr with
      | some k => s.updPort p fun i =>
          i.failed ⟨k, .write, va, some (faultAddr w.addr), s.faultRegion (some (faultAddr w.addr)), 1#8⟩ .wrote
      | none => (s.noteWrite p w.addr).updPort p fun i => { i with posted := i.posted ++ [w], bus := .wrote } := by
  cases h : s.check p .write w.addr with
  | none => simp [State.acceptPosted, h, State.complete]
  | some k => simp [State.acceptPosted, h, State.failWrite_eq]

@[simp] theorem State.store_acceptPosted (s : State) (p : Port) (va : Half) (w : StoreWrite) :
    (s.acceptPosted p va w).store = s.store := by
  rw [State.acceptPosted_eq]; split <;> simp

@[simp] theorem State.store_acceptHeld (s : State) (p : Port) : (s.acceptHeld p).store = s.store := by
  unfold State.acceptHeld
  split
  · rfl
  · split <;> simp

/-- The store address of a word's first byte, read back as the word. -/
theorem State.faultRegion_faultAddr (s : State) (w : StoreAddr) :
    s.faultRegion (some (faultAddr w)) = s.regionOf w := by
  have hw := w.isLt
  have h1 : (faultAddr w).toNat = 4 * w.toNat := by simp [faultAddr]; omega
  have h2 : ¬ 0x20000 ≤ 4 * w.toNat := by omega
  have h3 : BitVec.ofNat 15 (4 * w.toNat / 4) = w := by
    apply BitVec.eq_of_toNat_eq
    simp
  simp only [State.faultRegion, h1, h2, if_false, h3]

end Sys2Proof.Machine
end

