-- ==== Sys2Proof/Tests/Slice0.lean ====
section
/-! SUPPORT. The model's own tests: words the manual writes out, terms the well-formedness check refuses,
single steps, and for each statement with hypotheses a state and operands that meet them. -/

namespace Sys2Proof.Tests

open Sys2Proof Sys2Proof.Machine

/-! ### Ill-formed terms -/

/-- A BAD_COMMAND word with a defined code is another row's (R175). -/
theorem test_wf_refuses_badCommand_with_defined_code : (Instr.badCommand .p0 0x00000710#32).wf = false := by decide
/-- A full write of NPOP is not WINDOW_WRITE (R174). -/
theorem test_wf_refuses_windowWrite_on_owned_word : (Instr.windowWrite .p0 0x0C#8 15#4 0#32).wf = false := by decide
/-- Nor is a full write of an aperture word (R109, R174). -/
theorem test_wf_refuses_windowWrite_on_aperture : (Instr.windowWrite .p0 0x3F#8 15#4 0#32).wf = false := by decide
/-- A view read below 0400h is in the window (R108). -/
theorem test_wf_refuses_viewRead_in_window : (Instr.viewRead .p0 0x0FF#14).wf = false := by decide
/-- A view write below 0400h is in the window (R108). -/
theorem test_wf_refuses_viewWrite_in_window : (Instr.viewWrite .p0 0x0FF#14 15#4 0#32).wf = false := by decide

/-! ### Words the manual writes out -/

/-- The two command words of 11.5's example. -/
theorem test_decode_command_words :
    decodeCommand .p0 0x00000240#32 = .define .p0 { region := 2 } ∧
      decodeCommand .p0 0x00030710#32 = .acquire .p0 { region := 7, exclusive := true, wait := true } := by decide
/-- Bus words written out from 11.1, 11.4 and 11.8. -/
theorem test_bus_words :
    decodeBus .p0 (.write 0x001#14 15#4 0x00000240#32) = some (.define .p0 { region := 2 }) ∧
    decodeBus .p1 (.write 0x001#14 15#4 0x00030710#32) =
      some (.acquire .p1 { region := 7, exclusive := true, wait := true }) ∧
    decodeBus .p0 (.write 0x001#14 15#4 0x00200044#32) = some (.evict .p0 { target := .p2 }) ∧
    decodeBus .p3 (.write 0x001#14 15#4 0x00000000#32) = some (.badCommand .p3 0#32) ∧
    decodeBus .p2 (.write 0x02B#14 15#4 0x0000000F#32) = some (.attrWrite .p2 2 0xF#32) ∧
    decodeBus .p1 (.write 0x0C0#14 15#4 0x00084444#32) = some (.sarb .p1 0x00084444#32) ∧
    decodeBus .p0 (.write 0x001#14 7#4 0x00000240#32) = some (.windowWrite .p0 0x01#8 7#4 0x240#32) ∧
    decodeBus .p0 (.read 0x100#14) = some (.viewRead .p0 0x100#14) := by decide
/-- The table gives no bits, so no word spells a command. -/
theorem test_table_words_spell_nothing : decodeTableWord 32 0x00030710 = none := rfl
/-- CARG0 of 11.5's example: base page 20, 236 pages. -/
theorem test_extent_word : extentOf 0x00EC0014#32 = ⟨20, 236⟩ := by decide
/-- NHEAD0 and NHEAD1 of 11.6's example. -/
theorem test_head_words : (Record.granted 3 .shared 8#16 true).word0 = 0x00040301#32 ∧
    (Record.granted 3 .shared 8#16 true).word1 = 8#32 := by decide
/-- NMASK after reset (11.6) and SARB after reset (11.10). -/
theorem test_default_words : PortIface.atReset.nmaskWord = 0x000001FE#32 ∧
    State.reset.sarbWord = 0x00084444#32 := by decide
/-- A SARB word gives back what it was written as. -/
theorem test_sarb_fields : prioritiesOf 0x00084444#32 = .atReset := by decide

/-! ### States to test on -/

/-- The part READY, every port ATTACHED, P0 the supervisor. -/
def ready : State :=
  { State.reset with
    rstLow := false, supervisor := some .p0, part := .ready, wipeList := []
    ports := .all { PortIface.atReset with state := .attached } }

/-- The part STARTING with RST_n high and the whole store to sweep. -/
def starting : State := { State.reset with rstLow := false, supervisor := some .p0 }

/-- A FREE region over pages 4 and 5, open to members only, at generation 12. -/
def region : Region where
  state := .free
  extent := ⟨4, 2⟩
  attrs := ⟨0#16, .all true, false, true, true⟩
  holders := .all none
  queue := []
  generation := 12#16
  digest := none
  taint := false
  job := none

/-- A hold without a lease. -/
def aHold (m : Mode) : Hold := ⟨m, none, false, false⟩

/-- The region held by `p`. -/
def heldBy (m : Mode) (p : Port) : Region :=
  { region with state := m.heldState, holders := (PerPort.all none).set p (some (aHold m)) }

/-- The region SHARED to P1, P2 and P3. -/
def sharedByThree : Region :=
  { region with state := .shared, holders := ⟨none, some (aHold .shared), some (aHold .shared), some (aHold .shared)⟩ }

/-- The region draining. -/
def drains (x : DrainReason) (a : PerPort Bool) : Region := { region with state := .draining ⟨x, a⟩ }

/-- The ready part with `g` as region 2. -/
def withRegion (g : Region) : State := ready.setSlot 2 (some g)

/-- A command word's fields naming region 2. -/
def on2 : CmdFields := { region := 2 }

/-- The ready part with port P1's interface changed. -/
def withPort (f : PortIface → PortIface) : State := ready.updPort .p1 f

/-- The state a command leaves, or the given one if it stops. -/
def stateAfter (c : Instr) (s : State) : State := match exec c s with
  | .next t => t
  | .fault _ => s
  | .refused _ => s

theorem slot_withRegion (g : Region) : (withRegion g).slot 2 = some g := State.slot_setSlot_self _ _ _

theorem takes_withRegion (g : Region) (p : Port) : (withRegion g).takes p := by cases p <;> exact ⟨rfl, rfl⟩

theorem commands_withRegion (g : Region) (p : Port) : (withRegion g).commands p := by
  cases p <;> exact ⟨⟨rfl, rfl⟩, rfl, rfl⟩

theorem supervises_withRegion (g : Region) : (withRegion g).supervises .p0 := ⟨commands_withRegion g .p0, rfl⟩

theorem takes_ready (p : Port) : ready.takes p := by cases p <;> exact ⟨rfl, rfl⟩

/-! ### Single steps, with the manual's numbers -/

/-- The state words of 11.9's examples. -/
theorem test_state_words : sharedByThree.stateWord = 0x000000E2#32 ∧
    (heldBy .exclusive .p0).stateWord = 0x00000113#32 ∧
    { heldBy .exclusive .p0 with queue := [⟨.p1, .exclusive⟩] }.stateWord = 0x00001113#32 := by decide
/-- PSTAT of 11.3's example. -/
theorem test_pstat_word : (ready.updPort .p0 fun i => { i with
    posted := List.replicate 3 ⟨0#15, 0#32, 15#4⟩, notes := List.replicate 2 (.dropped 0) }).pstat .p0 =
      0x00020307#32 := by decide
/-- The CRC table of chapter 6: its register after the first byte's eight bits and after the first word, and
their complements. -/
theorem test_crc : (List.range 8).foldl (fun c _ => crcBit c false) crcStart = 0x2DFD1072#32 ∧
    crcWord crcStart 0#32 = 0xDEBB20E3#32 ∧ crcValue 0xDEBB20E3#32 = 0x2144DF1C#32 :=
  ⟨by decide, by simp [crcWord, crcBit, crcStart, List.range, List.range.loop], by decide⟩
/-- A grant answers the generation, and bit 17 for EXCLUSIVE (11.5). -/
theorem test_acquire_grants :
    ((stateAfter (.acquire .p0 { region := 2, exclusive := true }) (withRegion region)).port .p0).cresv =
      0x0002000C#32 := by decide
/-- An EXCLUSIVE request on a SHARED region waits at position 1 (11.5). -/
theorem test_acquire_queues :
    ((stateAfter (.acquire .p0 { region := 2, exclusive := true, wait := true })
      (withRegion sharedByThree)).port .p0).cres = 0x02#8 ∧
    ((stateAfter (.acquire .p0 { region := 2, exclusive := true, wait := true })
      (withRegion sharedByThree)).port .p0).cresv = 1#32 := by decide
/-- A port that is not ATTACHED is told so (11.5). -/
theorem test_release_detached : ((stateAfter (.release .p0 on2)
    { ready with ports := .all .atReset }).port .p0).cres = 0x11#8 := by decide
/-- A MESSAGE record carries CARG0 and its source (R154). -/
theorem test_message : ((stateAfter (.message .p0 { target := .p2 })
    (ready.updPort .p0 fun i => { i with carg0 := 0x41#32 })).port .p2).notes = [.message .p0 0x41#32] := by decide
/-- A view access without a matching entry returns the fill word and is UNMAPPED (R117, R121). -/
theorem test_unmapped_read : ((stateAfter (.viewRead .p1 0x100#14) ready).port .p1).bus = .read 0xFFFFFFFF#32 ∧
    ((stateAfter (.viewRead .p1 0x100#14) ready).port .p1).notes = [.fault .unmapped] := by decide
/-- A DIGEST finds the engine IDLE and starts at once (R101); the job field is queued in its event (R93). -/
theorem test_digest_starts_at_once :
    (let s := stateAfter (.digest .p1 on2) (withRegion (heldBy .shared .p1));
      s.current = some ⟨⟨.digest, 2, some .p1⟩, ⟨4, 2⟩, 0, 0xFFFFFFFF#32⟩ ∧ s.jobQueue = [] ∧
        (s.slot 2).bind Region.job = some ⟨.digest, false, some .p1⟩) := by decide
/-- 12.6: an update's settle leaves the region's DIGEST queued on an IDLE engine, and its start running. -/
theorem test_settle_queues_then_starts :
    (let g := drains (.release ⟨true, false⟩) (onlyPort .p1);
      let s := stateAfter (.fenceCompletion .p1 2) { withRegion g with completions := [(.p1, 2)] };
      (s.slot 2).bind Region.job = some ⟨.digest, false, none⟩ ∧ s.current.isSome = true ∧
        ((stateAfter .jobStart s).slot 2).bind Region.job = some ⟨.digest, true, none⟩) := by decide
/-- A CMD write behind RST_n in the queue completes at the reset without a result, and is dropped when it comes
up, where one begun later waits (R166, R179, 11.2). -/
theorem test_overtaken_command :
    (let s := stateAfter .warmReset { starting with pending := [.attach .p1 {}] };
      (s.port .p1).bus = .wrote ∧ (s.port .p1).cmd = 0#32 ∧
        ((stateAfter (.attach .p1 {}) s).port .p1).waiting = none ∧
        ((stateAfter (.attach .p1 {}) s).port .p1).cres = 0#8 ∧
        ((stateAfter (.attach .p2 {}) s).port .p2).waiting = some (.attach .p2 {})) := by decide
/-- A word of the start-up sweep is written in the engine's slot (R105). -/
theorem test_sweepWord : (stateAfter .sweepWord starting).swept = 1 := by decide
/-- RST_n high with SUPSEL at 10 makes P2 the supervisor (R170). -/
theorem test_resetRelease : (stateAfter (.resetRelease 2#2) State.reset).supervisor = some .p2 := by decide

/-! ### Witnesses: the hypotheses of each statement, clause by clause, met together -/

theorem forall_port {P : Port → Prop} : (∀ p, P p) ↔ P .p0 ∧ P .p1 ∧ P .p2 ∧ P .p3 :=
  ⟨fun h => ⟨h _, h _, h _, h _⟩, fun ⟨h0, h1, h2, h3⟩ p => by cases p <;> assumption⟩

theorem exists_port {P : Port → Prop} : (∃ p, P p) ↔ P .p0 ∨ P .p1 ∨ P .p2 ∨ P .p3 :=
  ⟨fun ⟨p, h⟩ => by cases p <;> simp [h],
    fun h => by rcases h with h | h | h | h; exacts [⟨_, h⟩, ⟨_, h⟩, ⟨_, h⟩, ⟨_, h⟩]⟩

theorem witness_StepRunsFrontCommand :
    ({ ready with pending := [.npop .p0 0#32] } : State).pending = .npop .p0 0#32 :: [] := rfl

theorem witness_EmptyQueueStepIsRefclkPeriod :
    (State.reset.pending = [] ∧ State.reset.rstLow = true) ∧ ready.pending = [] ∧ ready.rstLow = false ∧
      ({ ready with divider := 7998 } : State).divider < 7999 ∧
      ({ ready with divider := 7999 } : State).divider = 7999 := by decide

theorem witness_HostAccessNotTaken :
    (encodeBus (.windowWrite .p1 0x0C#8 15#4 0#32) = some (.p1, fullWrite 0x0C#8 0#32) ∧
      (Instr.windowWrite .p1 0x0C#8 15#4 0#32).wf = false) ∧
    encodeBus (.npop .p1 0#32) = some (.p1, fullWrite 0x0C#8 0#32) ∧ (Instr.npop .p1 0#32).wf = true ∧
    (let s := withPort fun i => { i with blocking := some (.read 0#15) };
      s.served .p1 = true ∧ (s.port .p1).busHeld = true) ∧
    (State.reset.served .p1 = false ∧ (State.reset.port .p1).waiting = none) ∧
    (let s := State.reset.updPort .p1 fun i => { i with waiting := some (.npop .p1 0#32) };
      s.served .p1 = false ∧ (s.port .p1).waiting.isSome = true ∧ (s.port .p1).overtaken ≠ some (.npop .p1 0#32)) ∧
    (let s := State.reset.updPort .p1 fun i => { i with overtaken := some (.attach .p1 {}) };
      encodeBus (.attach .p1 {}) = some (.p1, fullWrite 0x01#8 0x00000001#32) ∧ (Instr.attach .p1 {}).wf = true ∧
      s.served .p1 = false ∧ (s.port .p1).overtaken = some (.attach .p1 {})) := by decide

theorem witness_AttachDecided :
    (starting.takes .p1 ∧ starting.part = .starting) ∧
    (ready.takes .p1 ∧ ready.part = .ready ∧ (ready.port .p1).state = .attached) ∧
    (let s := withPort fun i => { i with state := .detached };
      s.takes .p1 ∧ s.part = .ready ∧ (s.port .p1).state = .detached) := by decide

theorem witness_CommandChecks :
    (starting.takes .p1 ∧ starting.part = .starting) ∧
    (let s := withPort fun i => { i with state := .detached };
      s.takes .p1 ∧ s.part = .ready ∧ (s.port .p1).state = .detached) ∧
    (ready.takes .p1 ∧ ready.part = .ready ∧ (ready.port .p1).state = .attached ∧ ready.slot 31 = none ∧
      ready.supervisor ≠ some .p1) ∧
    (ready.takes .p0 ∧ (ready.port .p0).state = .attached ∧ ready.supervisor = some .p0) := by decide

/-- The state part of the regional commands' hypotheses, for any region and port. -/
theorem witness_region_command (g : Region) (p : Port) :
    (withRegion g).commands p ∧ (withRegion g).slot on2.region = some g :=
  ⟨commands_withRegion g p, slot_withRegion g⟩

/-- The state part of the supervisor commands' hypotheses, for any region. -/
theorem witness_supervisor_command (g : Region) :
    (withRegion g).supervises .p0 ∧ (withRegion g).slot on2.region = some g :=
  ⟨supervises_withRegion g, slot_withRegion g⟩

/-- P1 against a region without members, PRIVATE to P2, held by P1, waited on by P1; then a FREE region, asked for
either way, and a region EXCLUSIVE to P2. -/
theorem witness_AcquireDecided :
    { region.attrs with members := .all false }.members.get .p1 = false ∧
    (region.attrs.members.get .p1 = true ∧ ∃ q, ({ region with state := .ownedBy .p2 } : Region).state = .ownedBy q) ∧
    ((∀ q, (heldBy .shared .p1).state ≠ .ownedBy q) ∧ (heldBy .shared .p1).holds .p1) ∧
    (let g := { region with queue := [⟨.p1, .shared⟩] };
      (∀ q, g.state ≠ .ownedBy q) ∧ ¬ g.holds .p1 ∧ g.waits .p1) ∧
    ((∀ q, region.state ≠ .ownedBy q) ∧ ¬ region.holds .p1 ∧ ¬ region.waits .p1 ∧ region.state = .free ∧
      region.queue = [] ∧ region.job = none) ∧
    (let g := heldBy .exclusive .p2;
      g.attrs.members.get .p1 = true ∧ (∀ q, g.state ≠ .ownedBy q) ∧ ¬ g.holds .p1 ∧ ¬ g.waits .p1 ∧
        g.state ≠ .free ∧ g.state ≠ .shared) := by
  simp [Region.holds, Region.waits, region, heldBy, aHold, Mode.heldState, PerPort.all, PerPort.get, PerPort.set]

theorem witness_CancelDecided :
    ({ heldBy .shared .p2 with queue := [⟨.p1, .exclusive⟩] } : Region).waits .p1 ∧ ¬ region.waits .p1 := by
  decide

theorem witness_ReleaseDecided :
    ¬ region.holds .p1 ∧
    ((heldBy .shared .p1).holders.get .p1 = some (aHold .shared) ∧ ∀ q, (heldBy .shared .p1).holds q → q = .p1) ∧
    (sharedByThree.holders.get .p1 = some (aHold .shared) ∧ ∃ q, q ≠ .p1 ∧ sharedByThree.holds q) ∧
    ((heldBy .exclusive .p1).holders.get .p1 = some (aHold .exclusive) ∧ (aHold .exclusive).mode = .exclusive) := by
  refine ⟨by decide, ⟨rfl, fun q => by cases q <;> decide⟩, ⟨rfl, .p2, by decide⟩, rfl, rfl⟩

/-- The lease of 5 ticks and the hold with a lease, its last tick to come. -/
def leased : Region :=
  { region with
    state := .shared, attrs := { region.attrs with lease := 5#16 }
    holders := (PerPort.all none).set .p1 (some ⟨.shared, some 1#16, true, false⟩) }

theorem witness_RenewDecided :
    ¬ region.holds .p1 ∧ ((heldBy .shared .p1).holds .p1 ∧ (heldBy .shared .p1).attrs.lease = 0#16) ∧
    (leased.holders.get .p1 = some ⟨.shared, some 1#16, true, false⟩ ∧ leased.attrs.lease ≠ 0#16) := by decide

theorem witness_PrivacyCommandsDecided :
    (region.holders.get .p1).map Hold.mode ≠ some .exclusive ∧
    ((heldBy .exclusive .p1).holders.get .p1).map Hold.mode = some .exclusive ∧
    ({ region.attrs with mayPrivate := false } : Attributes).mayPrivate = false ∧
    (heldBy .exclusive .p1).attrs.mayPrivate = true ∧
    ({ heldBy .exclusive .p1 with queue := [⟨.p2, .shared⟩] } : Region).queue ≠ [] ∧
    (heldBy .exclusive .p1).queue = [] ∧ region.state ≠ .ownedBy .p1 ∧
    ({ region with state := .ownedBy .p1 } : Region).state = .ownedBy .p1 := by decide

theorem witness_DigestDecided :
    (region.holders.get .p1).map Hold.mode ≠ some .shared ∧
    ((heldBy .shared .p1).holders.get .p1).map Hold.mode = some .shared ∧ (heldBy .shared .p1).job = none ∧
    ({ heldBy .shared .p1 with job := some ⟨.digest, true, none⟩ } : Region).job ≠ none := by decide

/-- The target DETACHED, with 15 records, and with 14. -/
theorem witness_MessageDecided :
    (let s := withPort fun i => { i with state := .detached };
      s.commands .p0 ∧ (s.port .p1).state = .detached) ∧
    (let s := withPort fun i => { i with notes := List.replicate 15 (.dropped 0) };
      s.commands .p0 ∧ (s.port .p1).state = .attached ∧ 15 ≤ (s.port .p1).notes.length) ∧
    (let s := withPort fun i => { i with notes := List.replicate 14 (.dropped 0) };
      s.commands .p0 ∧ (s.port .p1).state = .attached ∧ (s.port .p1).notes.length ≤ 14) := by decide

/-- The slot taken, the extent empty or one page too long, an overlap in page 5, and the store's last pages. -/
theorem witness_DefineDecided :
    (withRegion region).supervises .p0 ∧ (withRegion region).slot 2 ≠ none ∧ (withRegion region).slot 31 = none ∧
    (extentOf 0x00000005#32).count = 0 ∧ (512 < (extentOf 0x000201FF#32).base + (extentOf 0x000201FF#32).count) ∧
    (∃ q g page, (withRegion region).slot q = some g ∧ g.extent.hasPage page = true ∧
      (extentOf 0x00020005#32).hasPage page = true) ∧
    (∀ q g page, ready.slot q = some g → ¬ (g.extent.hasPage page = true ∧ (extentOf 0x000101FF#32).hasPage page = true)) := by
  refine ⟨supervises_withRegion _, by rw [slot_withRegion]; simp, by decide, by decide, by decide,
    ⟨2, region, 5, slot_withRegion _, by decide, by decide⟩, fun q g page h => ?_⟩
  simp [ready, State.slot, State.reset] at h

theorem witness_ModifyAndDeleteDecided :
    (region.state = .free ∧ region.queue = [] ∧ region.job = none) ∧
    ¬ (sharedByThree.state = .free ∧ sharedByThree.queue = [] ∧ sharedByThree.job = none) := by decide

/-! #### Lawful states -/

theorem slot_withRegion_cases {g h : Region} {r : RegionIx} (hs : (withRegion g).slot r = some h) : r = 2 ∧ h = g := by
  by_cases hr : r = 2
  · subst hr
    rw [slot_withRegion] at hs
    exact ⟨rfl, (Option.some.inj hs).symm⟩
  · rw [withRegion, State.slot_setSlot_of_ne _ _ hr] at hs
    simp [ready, State.slot, State.reset] at hs

theorem attached_withRegion (g : Region) (p : Port) : ((withRegion g).port p).state = .attached := by
  cases p <;> rfl

theorem regionsLaw_withRegion {g : Region} (h : g.lawful) : (withRegion g).regionsLaw := by
  refine ⟨fun r g' hs => ?_, fun r g' p _ hd => ?_⟩
  · obtain ⟨-, rfl⟩ := slot_withRegion_cases hs
    exact h
  · simp [attached_withRegion] at hd

theorem extentsLaw_withRegion {g : Region} (h : g.extent.inStore) : (withRegion g).extentsLaw := by
  refine ⟨fun r g' hs => ?_, fun r q g1 g2 page h1 h2 hne => ?_⟩
  · obtain ⟨-, rfl⟩ := slot_withRegion_cases hs
    exact h
  · exact absurd ((slot_withRegion_cases h1).1.trans (slot_withRegion_cases h2).1.symm) hne

/-- The region held EXCLUSIVE by P2, with P1 waiting. -/
def waitedOn : Region := { heldBy .exclusive .p2 with queue := [⟨.p1, .shared⟩] }

/-- The region held EXCLUSIVE by P1 with one tick to go, and P2 waiting. -/
def lastTick : Region :=
  { leased with
    state := .exclusive, queue := [⟨.p2, .shared⟩]
    holders := (PerPort.all none).set .p1 (some ⟨.exclusive, some 1#16, true, true⟩) }

/-- The lawful regions the witnesses use. -/
theorem test_regions_lawful :
    region.lawful ∧ (heldBy .shared .p1).lawful ∧ (heldBy .exclusive .p1).lawful ∧ leased.lawful ∧
    { region with job := some ⟨.digest, true, none⟩ }.lawful ∧ { region with state := .ownedBy .p1 }.lawful ∧
    (drains (.release ⟨true, true⟩) (onlyPort .p1)).lawful ∧ (drains (.relinquish .p1) (onlyPort .p1)).lawful ∧
    { region with state := .wiping, job := some ⟨.wipe, true, some .p0⟩ }.lawful ∧ waitedOn.lawful ∧
    lastTick.lawful ∧ { drains .define (onlyPort .p1) with generation := 0#16 }.lawful ∧
    (drains (.reclaim .p0) (onlyPort .p1)).lawful := by
  simp [Region.lawful, Region.holdersLaw, Region.jobLaw, Region.queueLaw, Region.holdLaw, Region.defineLaw,
    forall_port, exists_port, Region.holds, Region.waits, region, heldBy, leased, waitedOn, lastTick, drains, aHold,
    Mode.heldState, PerPort.all, PerPort.get, PerPort.set]

/-- A state under all the laws, with region 2 held by P1, and the command that releases it waiting. -/
def lawfulState : State := { withRegion (heldBy .shared .p1) with pending := [.release .p1 on2] }

theorem lawfulState_lawful : lawfulState.lawful := by
  have hp : ∀ p, lawfulState.port p = { PortIface.atReset with state := .attached } := by
    intro p; cases p <;> rfl
  have hs : ∀ {r g}, lawfulState.slot r = some g → r = 2 ∧ g = heldBy .shared .p1 :=
    fun h => slot_withRegion_cases (g := heldBy .shared .p1) h
  refine ⟨rfl, ?_, ?_, ?_, ?_, ?_, ?_, ?_, ?_, ?_⟩
  · exact regionsLaw_withRegion test_regions_lawful.2.1
  · exact extentsLaw_withRegion (g := heldBy .shared .p1) ⟨by decide, by decide⟩
  · intro r g d h hd
    obtain ⟨-, rfl⟩ := hs h
    simp [heldBy, region] at hd
  · exact ⟨nofun, nofun, fun _ => rfl, by decide⟩
  · intro p; rw [hp]; simp [PortIface.notesLaw, PortIface.atReset]
  · intro p; rw [hp]; simp [PortIface.pathLaw, PortIface.atReset]
  · intro p
    refine ⟨fun h => ?_, nofun, fun c h => ?_⟩
    · have hv : lawfulState.served p = true := by cases p <;> rfl
      simp [hv] at h
    · simp [hp, PortIface.atReset] at h
  · refine ⟨fun p r => ?_, fun p => by rw [hp]; simp [PortIface.fencesLaw, PortIface.atReset]⟩
    have ha : lawfulState.awaits r p = false := by
      unfold State.awaits
      cases h : lawfulState.slot r with
      | none => rfl
      | some g => obtain ⟨-, rfl⟩ := hs h; rfl
    rw [ha, State.fencesInFlight, hp]
    rfl
  · refine ⟨fun _ _ => rfl, fun r => ?_⟩
    have hn : lawfulState.noJobFor r := ⟨nofun, nofun, nofun, nofun⟩
    cases h : lawfulState.slot r with
    | none => exact hn
    | some g => obtain ⟨-, rfl⟩ := hs h; exact hn

/-- A lawful state, other than the one after reset, whose step answers a next state: every law that a
statement assumes and its step, together. -/
theorem witness_StepKeepsLaws : lawfulState.lawful ∧ ∃ t, step lawfulState = .next t :=
  ⟨lawfulState_lawful, _, rfl⟩

/-- P1 holds EXCLUSIVE, holds SHARED, waits, and has no part. -/
theorem witness_DetachDecided :
    ((withRegion (heldBy .exclusive .p1)).commands .p1 ∧ (withRegion (heldBy .exclusive .p1)).regionsLaw ∧
      (heldBy .exclusive .p1).holders.get .p1 = some (aHold .exclusive)) ∧
    ((withRegion (heldBy .shared .p1)).regionsLaw ∧
      ((heldBy .shared .p1).holders.get .p1).map Hold.mode = some .shared) ∧
    ((withRegion waitedOn).commands .p1 ∧ (withRegion waitedOn).regionsLaw ∧ waitedOn.waits .p1) ∧
    ¬ region.holds .p1 ∧ ¬ region.waits .p1 :=
  ⟨⟨commands_withRegion _ _, regionsLaw_withRegion test_regions_lawful.2.2.1, rfl⟩,
    ⟨regionsLaw_withRegion test_regions_lawful.2.1, rfl⟩,
    ⟨commands_withRegion _ _, regionsLaw_withRegion test_regions_lawful.2.2.2.2.2.2.2.2.2.1, by decide⟩,
    by decide, by decide⟩

/-- The supervisor against a lawful region of every state: FREE, with a job, SHARED, EXCLUSIVE, PRIVATE, draining
for each reason, and WIPING. -/
theorem witness_ReclaimDecided :
    (∀ g, (withRegion g).supervises .p0 ∧ (withRegion g).slot on2.region = some g) ∧
    (region.lawful ∧ region.state = .free ∧ region.job = none) ∧
    (let g : Region := { region with job := some ⟨.digest, true, none⟩ }; g.lawful ∧ g.state = .free ∧ g.job ≠ none) ∧
    ((heldBy .shared .p1).lawful ∧ (heldBy .shared .p1).state = .shared ∧ (heldBy .shared .p1).job = none) ∧
    ((heldBy .exclusive .p1).lawful ∧ (heldBy .exclusive .p1).state = .exclusive) ∧
    (let g : Region := { region with state := .ownedBy .p1 }; g.lawful ∧ g.state = .ownedBy .p1) ∧
    (let g := drains (.release ⟨true, true⟩) (onlyPort .p1);
      g.lawful ∧ g.state = .draining ⟨.release ⟨true, true⟩, onlyPort .p1⟩) ∧
    (let g := drains (.relinquish .p1) (onlyPort .p1); g.lawful ∧ g.state = .draining ⟨.relinquish .p1, onlyPort .p1⟩) ∧
    (let g : Region := { region with state := .wiping, job := some ⟨.wipe, true, some .p0⟩ };
      g.lawful ∧ g.state = .wiping) ∧
    (let g : Region := { drains .define (onlyPort .p1) with generation := 0#16 };
      g.lawful ∧ g.state = .draining ⟨.define, onlyPort .p1⟩) ∧
    (let g := drains (.reclaim .p0) (onlyPort .p1); g.lawful ∧ g.state = .draining ⟨.reclaim .p0, onlyPort .p1⟩) := by
  obtain ⟨h1, h2, h3, -, h5, h6, h7, h8, h9, -, -, h12, h13⟩ := test_regions_lawful
  exact ⟨witness_supervisor_command, ⟨h1, rfl, rfl⟩, ⟨h5, rfl, nofun⟩, ⟨h2, rfl, rfl⟩, ⟨h3, rfl⟩, ⟨h6, rfl⟩, ⟨h7, rfl⟩,
    ⟨h8, rfl⟩, ⟨h9, rfl⟩, ⟨h12, rfl⟩, ⟨h13, rfl⟩⟩

theorem witness_PortResetAndEvict :
    (withRegion (heldBy .exclusive .p1)).regionsLaw ∧ (withRegion (heldBy .exclusive .p1)).rstLow = false ∧
    ((withRegion (heldBy .exclusive .p1)).port .p1).resetLow = false ∧
    (withRegion (heldBy .exclusive .p1)).supervises .p0 ∧ (State.reset.rstLow = true ∧ State.reset.regionsLaw) ∧
    ((withPort fun i => { i with resetLow := true }).port .p1).resetLow = true ∧
    ({ target := .p1 } : CmdFields).target ≠ .p0 ∧ ({} : CmdFields).target = .p0 := by
  refine ⟨regionsLaw_withRegion test_regions_lawful.2.2.1, rfl, rfl, supervises_withRegion _,
    ⟨rfl, fun r g h => ?_, fun r g p h => ?_⟩, rfl, by decide, rfl⟩ <;>
  simp [State.slot, State.reset] at h

/-! #### The register window -/

theorem witness_WindowWritesTaken :
    ready.takes .p0 ∧ ready.takes .p1 ∧ (0x45#32 : Word).extractLsb' 0 8 ∉ Config.commandCodes ∧
    (Instr.windowWrite .p1 0x0C#8 7#4 0#32).wf = true ∧ (Instr.windowWrite .p1 0xFF#8 15#4 0#32).wf = true ∧
    (Instr.windowWrite .p1 2#8 15#4 0#32).wf = true ∧ (Instr.windowWrite .p1 3#8 15#4 0#32).wf = true ∧
    (Instr.windowWrite .p1 4#8 15#4 0#32).wf = true ∧ (ready.port .p1).notes = [] ∧
    ((withPort fun i => { i with notes := [.dropped 0] }).port .p1).notes = .dropped 0 :: [] ∧
    ready.supervisor = some .p0 ∧ ready.supervisor ≠ some .p1 := by decide

/-- P1 with aperture entry 0 enabled at view byte 0400h for 1 KiB, its store page and flags given. -/
def mapped (page : BitVec 10) (r w posted : Bool) (f : PortIface → PortIface := id) : PortIface → PortIface :=
  fun i => f (i.setAperture 0 ⟨true, 4#8, 2#4, page, r, w, posted⟩)

theorem witness_PlacementWriteTaken :
    ready.takes .p1 ∧ ((ready.port .p1).aperture 7).enabled = false ∧
    (withPort (mapped 0#10 true true true)).takes .p1 ∧
    (((withPort (mapped 0#10 true true true)).port .p1).aperture 0).enabled = true := by decide

/-- ATTR writes 0 and Fh; a disabled entry at the last placement that may be enabled and at size exponent 9; an
enabled entry. -/
theorem witness_AttrWriteTaken :
    (0x0#32 : Word).getLsbD 0 = false ∧ (0xF#32 : Word).getLsbD 0 = true ∧
    (let a : Aperture := ⟨false, 0xFF#8, 0#4, 511#10, false, false, false⟩;
      ((withPort fun i => i.setAperture 0 a).port .p1).aperture 0 = a ∧ a.placementBad = false) ∧
    (let a : Aperture := ⟨false, 0#8, 9#4, 0#10, false, false, false⟩;
      ((withPort fun i => i.setAperture 0 a).port .p1).aperture 0 = a ∧ 8 < a.sizeExp.toNat) ∧
    (let a := ((withPort (mapped 0#10 true true true)).port .p1).aperture 0;
      a.enabled = true ∧ a.sameFlags 0xF#32 = true) ∧
    (let a := ((withPort (mapped 0#10 true true false)).port .p1).aperture 0;
      a.enabled = true ∧ a.sameFlags 0xF#32 = false) := by decide

theorem witness_PstatReadFields :
    ready.takes .p1 ∧ (ready.port .p1).posted.length ≤ 8 ∧ (ready.port .p1).notes.length ≤ 16 := by decide

/-- The notification queue and the fault record empty and not, a slot UNDEFINED and not. -/
theorem witness_RegionViewReads :
    (ready.takes .p1 ∧ (ready.port .p1).notes = [] ∧ (ready.port .p1).fault = none) ∧
    (let i := (withPort fun i => { i with
        notes := [.dropped 31], fault := some ⟨.unmapped, .read, 0x400#16, none, none, 1#8⟩ }).port .p1;
      i.notes = .dropped 31 :: [] ∧ i.fault = some ⟨.unmapped, .read, 0x400#16, none, none, 1#8⟩) ∧
    ready.slot 31 = none ∧ (withRegion sharedByThree).slot 2 = some sharedByThree ∧
    (let g := { region with queue := [⟨.p0, .shared⟩, ⟨.p1, .shared⟩, ⟨.p2, .exclusive⟩, ⟨.p3, .shared⟩] };
      (withRegion g).slot 2 = some g ∧ g.queue.length ≤ 4) :=
  ⟨by decide, by decide, by decide, slot_withRegion _, slot_withRegion _, by decide⟩

/-! #### Views and the write path -/

/-- STARTING; no entry; and through entry 0 the last byte in the store, the first beyond it, and the flags. -/
theorem witness_ViewDecoded :
    starting.part = .starting ∧ (∀ n, ((ready.port .p1).aperture n).enabled = false) ∧
    (let e := ((withPort (mapped 510#10 false false true)).port .p1).aperture 0;
      (withPort (mapped 510#10 false false true)).part = .ready ∧ e.enabled = true ∧ e.base ≤ 0x400 ∧
      0x7FF < e.base + e.size ∧ 0x20000 ≤ e.translate 0x600 ∧ e.translate 0x5FC < 0x20000 ∧
      e.readOk = false ∧ e.writeOk = false) ∧
    (((withPort (mapped 510#10 true true true)).port .p1).aperture 0).readOk = true ∧
    (((withPort (mapped 510#10 true true true)).port .p1).aperture 0).writeOk = true := by decide

/-- No entry; a region that denies; and store addresses below 20000h and at it. -/
theorem witness_ViewAccessFails :
    (ready.takes .p1 ∧ Config.viewStart ≤ (0x100#14).toNat ∧
      ready.decodeView .p1 .read 0x100#14 = .fails .unmapped none ∧
      ready.decodeView .p1 .write 0x100#14 = .fails .unmapped none) ∧
    (let s := (withRegion region).updPort .p1 (mapped 4#10 true true true);
      s.takes .p1 ∧ s.decodeView .p1 .read 0x100#14 = .passes 0x100#15 true ∧
      s.check .p1 .read 0x100#15 = some .readDenied ∧ s.decodeView .p1 .write 0x100#14 = .passes 0x100#15 true ∧
      s.check .p1 .write 0x100#15 = some .writeDenied ∧ (s.port .p1).posted.length < 8) ∧
    (withRegion region).extentsLaw ∧ 0x20000 ≤ (0x20000#18).toNat ∧ (0x1FFFC#18).toNat < 0x20000 :=
  ⟨by decide, by decide, extentsLaw_withRegion ⟨by decide, by decide⟩, by decide, by decide⟩

/-- Eight writes in a posted queue. -/
def eight : List StoreWrite := List.replicate 8 ⟨0#15, 0#32, 15#4⟩

theorem witness_ViewAccessAccepted :
    (let s := withPort (mapped 0#10 true true true);
      s.takes .p1 ∧ s.decodeView .p1 .read 0x100#14 = .passes 0#15 true ∧ s.check .p1 .read 0#15 = none ∧
      s.decodeView .p1 .write 0x100#14 = .passes 0#15 true ∧ (s.port .p1).posted.length < 8 ∧
      s.check .p1 .write 0#15 = none) ∧
    (let s := withPort (mapped 0#10 true true true fun i => { i with posted := eight });
      s.takes .p1 ∧ s.decodeView .p1 .write 0x100#14 = .passes 0#15 true ∧ 8 ≤ (s.port .p1).posted.length) ∧
    (let s := withPort (mapped 0#10 true true false);
      s.takes .p1 ∧ s.decodeView .p1 .write 0x100#14 = .passes 0#15 false ∧ s.check .p1 .write 0#15 = none) := by
  decide

theorem witness_AcceptedWriteSetsWroteFlag :
    ((withRegion (heldBy .exclusive .p1)).regionOf 0x100#15 = some 2 ∧
      (heldBy .exclusive .p1).holders.get .p1 = some (aHold .exclusive) ∧
      ∀ q, (heldBy .exclusive .p1).state ≠ .ownedBy q) ∧
    (withRegion region).regionOf 0xFF#15 = none ∧ (withRegion region).regionOf 0x17F#15 = some 2 ∧
    (region.holders.get .p1).map Hold.mode ≠ some .exclusive := by
  refine ⟨⟨by decide, rfl, nofun⟩, by decide, by decide, by decide⟩

theorem witness_AccessCheckTable :
    (withRegion region).extentsLaw ∧ (withRegion region).slot 2 = some region ∧
    region.extent.hasPage ((0x100#15).toNat / 64) = true ∧ region.extent.hasPage ((0x180#15).toNat / 64) = false ∧
    (∀ q, region.state ≠ .ownedBy q) ∧ region.state ≠ .wiping ∧ region.holders.get .p1 = none ∧
    (heldBy .exclusive .p1).holders.get .p1 = some (aHold .exclusive) ∧
    (heldBy .shared .p1).holders.get .p1 = some (aHold .shared) ∧ Port.p1 ≠ .p2 := by
  refine ⟨extentsLaw_withRegion ⟨by decide, by decide⟩, slot_withRegion _, by decide, by decide, nofun, nofun, rfl, rfl, rfl,
    by decide⟩

/-- P1 with one posted write, then with eight and a ninth held. -/
theorem witness_PostedHeadLands :
    (let s := withPort fun i => { i with posted := [⟨0#15, 0#32, 15#4⟩] };
      s.store.wf = true ∧ (s.port .p1).posted = ⟨0#15, 0#32, 15#4⟩ :: [] ∧ (s.port .p1).held = none ∧
      (s.grantSlot (.port .p1)).isSome = true) ∧
    (let s := withPort fun i => { i with posted := eight, held := some ⟨0x400#16, ⟨0#15, 0#32, 15#4⟩⟩ };
      (s.port .p1).posted = eight ∧ (s.port .p1).held.isSome = true ∧
      (s.grantSlot (.port .p1)).isSome = true) := by decide

theorem witness_BlockingAccessPerformed :
    (let s := withPort fun i => { i with blocking := some (.read 0x7FFF#15) };
      s.store.wf = true ∧ (s.port .p1).posted = [] ∧ (s.grantSlot (.port .p1)).isSome = true ∧
      (s.port .p1).blocking = some (.read 0x7FFF#15)) ∧
    (let s := withPort fun i => { i with blocking := some (.write ⟨0#15, 0#32, 1#4⟩) };
      (s.port .p1).posted = [] ∧ (s.grantSlot (.port .p1)).isSome = true ∧
      (s.port .p1).blocking = some (.write ⟨0#15, 0#32, 1#4⟩)) := by decide

theorem witness_HeldWriteTaken :
    (let s := withPort fun i => { i with posted := eight, held := some ⟨0x400#16, ⟨0x100#15, 0#32, 15#4⟩⟩ };
      (s.port .p1).held = some ⟨0x400#16, ⟨0x100#15, 0#32, 15#4⟩⟩ ∧ 8 ≤ (s.port .p1).posted.length) ∧
    (let s := withPort fun i => { i with posted := eight.tail, held := some ⟨0x400#16, ⟨0x100#15, 0#32, 15#4⟩⟩ };
      (s.port .p1).posted.length < 8 ∧ s.check .p1 .write 0x100#15 = none) ∧
    (let s := (withRegion region).updPort .p1 fun i => { i with held := some ⟨0x400#16, ⟨0x100#15, 0#32, 15#4⟩⟩ };
      (s.port .p1).posted.length < 8 ∧ s.check .p1 .write 0x100#15 = some .writeDenied) := by decide

/-- P1 waits and is granted; the engine, worse by priority, is passed over. -/
theorem witness_ArbiterGrants :
    (let s := { withPort (fun i => { i with blocking := some (.read 0#15) }) with
        current := some ⟨⟨.digest, 2, none⟩, ⟨4, 2⟩, 0, crcStart⟩ };
      (s.grantSlot (.port .p1)).isSome = true ∧ (s.grantSlot .engine).isSome = false ∧ s.current ≠ none) := by decide

/-! #### Fences, drains and grants -/

theorem witness_FenceRequestTaken :
    (Port.p1, (2 : RegionIx)) ∈ ({ ready with fenceRequests := [(.p1, 2)] } : State).fenceRequests ∧
    (ready.port .p1).posted.length = 0 ∧
    ((withPort fun i => { i with posted := eight }).port .p1).posted.length ≠ 0 := by decide

/-- P1 awaited alone, with P2, under RECLAIM with a job; and P2 not awaited. -/
theorem witness_FenceCompletionTaken :
    (let s := { withRegion (drains (.relinquish .p1) (onlyPort .p1)) with completions := [(.p1, 2)] };
      (Port.p1, (2 : RegionIx)) ∈ s.completions) ∧
    (onlyPort .p1).get .p1 = true ∧ (onlyPort .p1).get .p2 = false ∧
    (((onlyPort .p1).set .p2 true).get .p1 = true ∧ ∃ q, q ≠ .p1 ∧ ((onlyPort .p1).set .p2 true).get q = true) ∧
    ({ drains (.reclaim .p0) (onlyPort .p1) with job := some ⟨.digest, true, none⟩ } : Region).job ≠ none :=
  ⟨by decide, rfl, rfl, ⟨rfl, .p2, by decide, rfl⟩, by decide⟩

theorem witness_DrainEnds :
    (withRegion (drains .define (.all false))).slot 2 = some (drains .define (.all false)) ∧
    (drains .define (.all false)).state = .draining ⟨.define, .all false⟩ ∧
    (∃ p, (onlyPort .p1).get p = true) ∧ (∀ p, (PerPort.all false).get p = false) ∧
    ((drains (.reclaim .p0) (.all false)).job = none) ∧
    ({ drains (.reclaim .p0) (.all false) with job := some ⟨.digest, true, none⟩ } : Region).job ≠ none :=
  ⟨slot_withRegion _, rfl, ⟨.p1, rfl⟩, by simp, rfl, by decide⟩

/-- Queues headed by SHARED and by EXCLUSIVE on a FREE region. -/
theorem witness_GrantPassGrants :
    (let g := { region with queue := [⟨.p1, .shared⟩, ⟨.p2, .shared⟩, ⟨.p0, .exclusive⟩] };
      (withRegion g).slot 2 = some g ∧ (g.queue.map WaitEntry.port).Nodup ∧ g.state = .free) ∧
    (let g := { region with queue := [⟨.p1, .exclusive⟩, ⟨.p2, .shared⟩] };
      (g.queue.map WaitEntry.port).Nodup ∧ g.state = .free ∧ g.job = none) :=
  ⟨⟨slot_withRegion _, by decide, rfl⟩, by decide⟩

/-! #### The sweep engine -/

/-- The engine, alone at the arbiter, with a job on region 2 at its first or its last word. -/
def sweeps (k : JobKind) (done : Nat) : State :=
  { withRegion { region with job := some ⟨k, true, none⟩ } with
    current := some ⟨⟨k, 2, none⟩, ⟨4, 2⟩, done, crcStart⟩ }

/-- The same at its last word, with a DIGEST on region 5 queued behind it. -/
def lastWord (k : JobKind) : State :=
  { (sweeps k 127).setSlot 5 (some { region with extent := ⟨8, 1⟩, job := some ⟨.digest, false, none⟩ }) with
    jobQueue := [⟨.digest, 5, none⟩] }

/-- With the last word of a WIPE the job queued behind it is RUNNING, and its region's field with it (R95, 6.8). -/
theorem test_next_job_starts_at_last_word :
    (let s := stateAfter .wipeWord (lastWord .wipe);
      s.current = some ⟨⟨.digest, 5, none⟩, ⟨8, 1⟩, 0, 0xFFFFFFFF#32⟩ ∧ s.reports = [.wipe 2] ∧
        (s.slot 5).bind Region.job = some ⟨.digest, true, none⟩) := by decide

/-- A start to take and none; an IDLE engine with a head; the last word with nothing queued, with a head behind it
and no start standing, and with the job's own start standing; a word before the last. -/
theorem witness_JobCarriedOut :
    (let s := { sweeps .digest 0 with starts := [2] };
      s.engineLaw ∧ s.starts = 2 :: [] ∧ (s.slot 2).isSome = true) ∧
    (ready.engineLaw ∧ ready.starts = []) ∧
    (let s := { withRegion { region with job := some ⟨.digest, false, none⟩ } with jobQueue := [⟨.digest, 2, none⟩] };
      s.part = .ready ∧ s.current = none ∧ s.jobQueue = ⟨.digest, 2, none⟩ :: [] ∧ (s.slot 2).isSome = true) ∧
    ((sweeps .wipe 127).store.wf = true ∧ ((sweeps .wipe 127).grantSlot .engine).isSome = true ∧
      (sweeps .wipe 127).jobQueue = [] ∧ 4 * 64 + 127 < 32768 ∧ 2 * 64 ≤ 127 + 1) ∧
    ((lastWord .digest).part = .ready ∧ ((lastWord .digest).grantSlot .engine).isSome = true ∧
      (lastWord .digest).jobQueue = ⟨.digest, 5, none⟩ :: [] ∧ ((lastWord .digest).slot 5).isSome = true ∧
      (lastWord .digest).starts = [] ∧ ({ lastWord .digest with starts := [2] } : State).starts ≠ []) ∧
    ((sweeps .digest 126).store.wf = true ∧ ((sweeps .digest 126).grantSlot .engine).isSome = true ∧
      126 + 1 < 2 * 64) := by
  refine ⟨⟨nofun, rfl, by decide⟩, ⟨fun _ _ => rfl, rfl⟩, by decide⟩

/-- The sweep of one page at its last word, and with every word written. -/
theorem witness_StartupSweep :
    (let s := { starting with wipeList := [⟨511, 1⟩], swept := 63 };
      s.part = .starting ∧ s.rstLow = false ∧ s.store.wf = true ∧ (s.grantSlot .engine).isSome = true ∧
      (s.wipeList.flatMap fun e => (List.range (e.count * 64)).map fun i => e.base * 64 + i)[s.swept]? =
        some 32767 ∧ (s.wipeList.flatMap fun e => (List.range (e.count * 64)).map fun i => e.base * 64 + i).length ≤
        s.swept + 1) := by
  refine ⟨rfl, rfl, rfl, by decide, by simp, by simp⟩

/-- A reported WIPE whose requester is ATTACHED and DETACHED, its start taken and not. -/
theorem witness_WipeCompletionTaken :
    (let s := { withRegion { region with state := .wiping, job := some ⟨.wipe, true, some .p1⟩ } with
        reports := [.wipe 2] };
      s.reports = .wipe 2 :: [] ∧ 2 ∉ s.starts ∧ 2 ∈ ({ s with starts := [2] } : State).starts ∧
      (s.slot 2).isSome = true ∧ (s.port .p1).state = .attached ∧
      ((s.updPort .p1 fun i => { i with state := .detached }).port .p1).state = .detached) := by decide

theorem witness_DigestCompletionTaken :
    (let s := { withRegion { drains (.reclaim .p0) (.all false) with job := some ⟨.digest, true, none⟩ } with
        reports := [.digest 2 0#32] };
      s.reports = .digest 2 0#32 :: [] ∧ 2 ∉ s.starts ∧ 2 ∈ ({ s with starts := [2] } : State).starts ∧
      (s.slot 2).map Region.state = some (.draining ⟨.reclaim .p0, .all false⟩)) ∧
    (∀ d x, region.state = .draining d → d.reason ≠ .reclaim x) := by
  refine ⟨by decide, fun d x h => by simp [region] at h⟩

/-! #### Leases and resets -/

/-- Holds at their last tick, SHARED and EXCLUSIVE, and a hold without a count. -/
theorem witness_TickTaken :
    ((withRegion leased).rstLow = false ∧ (withRegion leased).regionsLaw ∧ leased.losesHold = true ∧
      (leased.holders.get .p1).bind Hold.remaining = some 1#16) ∧
    ((withRegion lastTick).regionsLaw ∧ lastTick.losesExclusive = some (.p1, ⟨.exclusive, some 1#16, true, true⟩)) ∧
    ((withRegion (heldBy .shared .p1)).regionsLaw ∧ (heldBy .shared .p1).losesHold = false) :=
  ⟨⟨rfl, regionsLaw_withRegion test_regions_lawful.2.2.2.1, rfl, rfl⟩,
    ⟨regionsLaw_withRegion test_regions_lawful.2.2.2.2.2.2.2.2.2.2.1, rfl⟩,
    ⟨regionsLaw_withRegion test_regions_lawful.2.1, rfl⟩⟩

/-- R47's table for lease length 1 and R50's for L above T, at a tick right after a RENEW (log entry 23). -/
theorem test_tick_after_renew :
    (let g := { leased with attrs := { leased.attrs with lease := 1#16 } };
      let s := stateAfter (.renew .p1 on2) (withRegion g);
      ((s.tickRegion 2).port .p1).notes = [.revoked 2 .shared .lease]) ∧
    (let s := stateAfter (.renew .p1 on2) ((withRegion leased).updPort .p1 fun i => { i with lwarn := 4#16 });
      ((s.tickRegion 2).port .p1).notes = [.leaseWarning 2 4#16]) := by decide

/-- A hold at 3 with the threshold at 2, not yet warned, and the same with no threshold. -/
theorem witness_TickWarns :
    (let g := { leased with holders := (PerPort.all none).set .p1 (some ⟨.shared, some 3#16, false, false⟩) };
      g.holders.get .p1 = some ⟨.shared, some 3#16, false, false⟩ ∧ (3#16 - 1#16 = (2#16 : Half)) ∧
      ((withPort fun i => { i with lwarn := 2#16 }).port .p1).lwarn = 2#16 ∧ (ready.port .p1).lwarn = 0#16) := by
  decide

theorem witness_ExpiryTaken :
    (let g := { leased with holders := (PerPort.all none).set .p1 (some ⟨.shared, some 0#16, true, false⟩) };
      (withRegion g).slot 2 = some g ∧ g.holders.get .p1 = some ⟨.shared, some 0#16, true, false⟩ ∧
      (∀ q x, q ≠ Port.p1 → g.holders.get q = some x → x.remaining ≠ some 0#16) ∧ ∀ q, g.holds q → q = .p1) ∧
    (let g : Region := { leased with holders :=
        ⟨none, some ⟨.shared, some 0#16, true, false⟩, some ⟨.shared, some 5#16, true, false⟩, none⟩ };
      (∀ q x, q ≠ Port.p1 → g.holders.get q = some x → x.remaining ≠ some 0#16) ∧ ∃ q, q ≠ .p1 ∧ g.holds q) ∧
    (let g := { leased with
        state := .exclusive, holders := (PerPort.all none).set .p1 (some ⟨.exclusive, some 0#16, true, true⟩) };
      (∀ q x, q ≠ Port.p1 → g.holders.get q = some x → x.remaining ≠ some 0#16)) := by
  simp [forall_port, exists_port, withRegion, Region.holds, leased, PerPort.all, PerPort.get, PerPort.set]

/-- RST_n high in both part states; low with a list, with none, and with an ATTACH waiting on P1. -/
theorem witness_PartResets :
    (ready.rstLow = false ∧ ready.part = .ready) ∧ (starting.rstLow = false ∧ starting.part = .starting) ∧
    (State.reset.rstLow = true ∧ State.reset.part = .starting ∧ State.reset.swept = 0 ∧
      (∃ e ∈ State.reset.wipeList, e.count ≠ 0)) ∧ (∀ p, (State.reset.port p).waiting = none) ∧
    (∀ e ∈ ({ State.reset with wipeList := [] } : State).wipeList, e.count = 0) ∧
    (let s : State := State.reset.updPort .p1 fun i => { i with waiting := some (.attach .p1 {}) };
      s.rstLow = true ∧ (s.port .p1).waiting = some (.attach .p1 {}) ∧ s.busLaw) := by
  refine ⟨by decide, by decide, by decide, fun p => by cases p <;> rfl, nofun, rfl, rfl, ?_⟩
  simp [State.busLaw, forall_port, State.served, State.updPort, State.setPort, State.port, PerPort.all, PerPort.get,
    PerPort.set, State.reset, PortIface.atReset, PortIface.pathEmpty, Instr.wf, encodeBus]

/-- Pin P1RST_n low after reset with nothing waiting, and in the ready part with a POP waiting. -/
theorem witness_PortResetReleased :
    (let s : State := { State.reset with ports := .all { PortIface.atReset with resetLow := true } };
      (s.port .p1).resetLow = true ∧ s.busLaw ∧ s.rstLow = true ∧ (s.port .p1).waiting = none) ∧
    (let s : State := { starting with
        ports := (PerPort.all .atReset).set .p1
          { PortIface.atReset with resetLow := true, waiting := some (.npop .p1 0#32) } };
      (s.port .p1).resetLow = true ∧ s.busLaw ∧ s.rstLow = false ∧
        (s.port .p1).waiting = some (.npop .p1 0#32)) := by
  simp [State.busLaw, forall_port, State.served, State.port, PerPort.all, PerPort.get, PerPort.set, starting,
    State.reset, PortIface.atReset, PortIface.pathEmpty, Instr.wf, encodeBus]

/-- A DETACHED port; an ATTACHED one with a marker, with 14 records and with 15. -/
theorem witness_DeviceRecordOffered :
    (PortIface.atReset.notesLaw ∧ PortIface.atReset.state = .detached) ∧
    (let i : PortIface := { PortIface.atReset with state := .attached, notes := [.dropped 0, .overflow 65535#16] };
      i.notesLaw ∧ i.notes = [.dropped 0] ++ .overflow 65535#16 :: []) ∧
    (let i : PortIface := { PortIface.atReset with state := .attached, notes := List.replicate 14 (.dropped 0) };
      i.notesLaw ∧ (∀ n, Record.overflow n ∉ i.notes) ∧ i.notes.length ≤ 14) ∧
    (let i : PortIface := { PortIface.atReset with state := .attached, notes := List.replicate 15 (.dropped 0) };
      i.notesLaw ∧ (∀ n, Record.overflow n ∉ i.notes) ∧ i.notes.length = 15) := by
  simp [PortIface.notesLaw, PortIface.atReset, Record.isOverflow, List.filter]

/-! #### Rules of the whole device -/

theorem witness_StoreChangesOnlyByLanding : ∃ t, exec (.npop .p1 0#32) ready = .next t := ⟨_, rfl⟩

theorem witness_GenerationAdvancesByOne :
    lawfulState.regionsLaw ∧ lawfulState.partLaw ∧ (∃ t, step lawfulState = .next t ∧ (t.slot 2).isSome = true) ∧
      lawfulState.slot 2 = some (heldBy .shared .p1) :=
  ⟨lawfulState_lawful.2.1, lawfulState_lawful.2.2.2.2.1, ⟨_, rfl, by decide⟩, slot_withRegion _⟩

theorem witness_WindowsAreIsolated :
    encodeBus (.message .p1 { target := .p2 }) =
      some (.p1, fullWrite 0x01#8 (({ target := .p2 } : CmdFields).word 0x20#8)) ∧ Port.p2 ≠ .p1 ∧
    (∀ f, Instr.message .p1 { target := .p2 } = .evict .p1 f → f.target ≠ .p2) ∧
    ∃ t, exec (.message .p1 { target := .p2 }) ready = .next t := by
  refine ⟨rfl, by decide, nofun, _, rfl⟩

end Sys2Proof.Tests
end

section
/-! SUPPORT. What one event can do to one region: which changes leave its identity (extent, generation, digest)
and its job alone, which keep its law, and whom they involve. -/

namespace Sys2Proof.Machine

/-! ### Holders, waiters and the law -/

/-- The port holds the region or waits for it. -/
def Region.involves (g : Region) (p : Port) : Prop := g.holds p ∨ g.waits p

theorem Region.holds_iff {g : Region} {p : Port} : g.holds p ↔ ∃ h, g.holders.get p = some h :=
  Option.isSome_iff_exists

theorem Region.waitsFor_iff {g : Region} {p : Port} : g.waitsFor p = true ↔ g.waits p := by
  simp [Region.waitsFor]

theorem Region.held_iff (g : Region) : g.held = true ↔ ∃ p, g.holds p := by
  constructor
  · intro h
    simp only [Region.held, Bool.or_eq_true] at h
    obtain ((h | h) | h) | h := h
    exacts [⟨.p0, h⟩, ⟨.p1, h⟩, ⟨.p2, h⟩, ⟨.p3, h⟩]
  · rintro ⟨p, h⟩
    cases p <;> simp_all [Region.holds, Region.held, PerPort.get]

theorem Region.exclusiveBy_iff {g : Region} {p : Port} :
    g.exclusiveBy p = true ↔ ∃ h, g.holders.get p = some h ∧ h.mode = .exclusive := by
  simp [Region.exclusiveBy]

/-- What a region with this lease asks of a hold, its count being 0 only if `zero` (R20, R21, R46). -/
def Hold.lawfulAt (lease : Half) (zero : Prop) (h : Hold) : Prop :=
  (h.remaining.isSome = true ↔ lease ≠ 0#16) ∧ (∀ n, h.remaining = some n → (n = 0#16 → zero) ∧ n ≤ lease) ∧
    (h.mode = .shared → h.wrote = false)

/-- The ports of `E` may hold with a count of 0: the hold law in the middle of a tick (R46, R52). -/
def Region.holdLawBut (E : Port → Prop) (g : Region) : Prop :=
  ∀ p h, g.holders.get p = some h → h.lawfulAt g.attrs.lease (E p)

/-- The law of a region's fields, but for holds of the ports of `E` whose count is 0. -/
structure Region.lawfulBut (E : Port → Prop) (g : Region) : Prop where
  holders : g.holdersLaw
  job : g.jobLaw
  queue : g.queueLaw
  hold : g.holdLawBut E
  define : g.defineLaw

theorem Region.lawful_iff_lawfulBut {g : Region} : g.lawful ↔ g.lawfulBut fun _ => False :=
  ⟨fun ⟨h1, h2, h3, h4, h5⟩ => ⟨h1, h2, h3, h4, h5⟩, fun ⟨h1, h2, h3, h4, h5⟩ => ⟨h1, h2, h3, h4, h5⟩⟩

/-- Where no hold has come to 0 the exception is empty. -/
theorem Region.lawfulBut.lawful {E : Port → Prop} {g : Region} (h : g.lawfulBut E)
    (he : ∀ p x, E p → g.holders.get p = some x → x.remaining ≠ some 0#16) : g.lawful := by
  obtain ⟨h1, h2, h3, h4, h5⟩ := h
  refine ⟨h1, h2, h3, fun p x hx => ?_, h5⟩
  obtain ⟨ha, hb, hc⟩ := h4 p x hx
  refine ⟨ha, fun n hn => ⟨fun h0 => ?_, (hb n hn).2⟩, hc⟩
  subst h0
  exact he p x ((hb _ hn).1 rfl) hx hn

/-- A SHARED hold stands in a SHARED region. -/
theorem Region.holdersLaw.state_of_shared {g : Region} (hl : g.holdersLaw) {p : Port} {x : Hold}
    (hx : g.holders.get p = some x) (hm : x.mode = .shared) : g.state = .shared := by
  have hp : g.holds p := Region.holds_iff.mpr ⟨x, hx⟩
  unfold Region.holdersLaw at hl
  split at hl
  case h_2 hs => exact hs
  case h_3 =>
    obtain ⟨q, y, hy, hym, hq⟩ := hl
    obtain rfl := hq p hp
    rw [hx] at hy
    cases hy
    rw [hm] at hym; cases hym
  all_goals exact absurd hp (hl p)

/-- An EXCLUSIVE hold stands in an EXCLUSIVE region and is its only one. -/
theorem Region.holdersLaw.of_exclusive {g : Region} (hl : g.holdersLaw) {p : Port} {x : Hold}
    (hx : g.holders.get p = some x) (hm : x.mode = .exclusive) :
    g.state = .exclusive ∧ ∀ q, g.holds q → q = p := by
  have hp : g.holds p := Region.holds_iff.mpr ⟨x, hx⟩
  unfold Region.holdersLaw at hl
  split at hl
  case h_2 => have := hl.2 p x hx; rw [hm] at this; cases this
  case h_3 hs =>
    obtain ⟨q, y, _, _, hq⟩ := hl
    obtain rfl := hq p hp
    exact ⟨hs, hq⟩
  all_goals exact absurd hp (hl p)

/-- Only SHARED and EXCLUSIVE regions have holders. -/
theorem Region.holdersLaw.none_held {g : Region} (hl : g.holdersLaw) (h1 : g.state ≠ .shared)
    (h2 : g.state ≠ .exclusive) (p : Port) : ¬ g.holds p := by
  intro hp
  obtain ⟨x, hx⟩ := Region.holds_iff.mp hp
  cases hm : x.mode with
  | shared => exact h1 (hl.state_of_shared hx hm)
  | exclusive => exact h2 (hl.of_exclusive hx hm).1

/-- A region with no holders keeps the holders' law in every state but SHARED and EXCLUSIVE. -/
theorem Region.holdersLaw_of_none_held {g : Region} (h : ∀ p, ¬ g.holds p) (h1 : g.state ≠ .shared)
    (h2 : g.state ≠ .exclusive) : g.holdersLaw := by
  unfold Region.holdersLaw
  split
  case h_2 hs => exact absurd hs h1
  case h_3 hs => exact absurd hs h2
  all_goals exact h

/-- A hold law over no holders. -/
theorem Region.holdLawBut_of_none_held {E : Port → Prop} {g : Region} (h : ∀ p, ¬ g.holds p) : g.holdLawBut E :=
  fun p x hx => absurd (Region.holds_iff.mpr ⟨x, hx⟩) (h p)

theorem Region.jobLaw_of_none {g : Region} (h : g.job = none) (hs : g.state ≠ .wiping) : g.jobLaw := by
  unfold Region.jobLaw
  split
  case h_6 hs' => exact absurd hs' hs
  case h_4 => split <;> simp [h]
  all_goals simp [h]

/-- A state that is not a DEFINE drain has nothing to say of generation, digest and taint. -/
theorem Region.defineLaw_of_ne {g : Region} (h : ∀ a, g.state ≠ .draining ⟨.define, a⟩) : g.defineLaw :=
  fun a ha => absurd ha (h a)

/-- A shorter queue in the same order keeps the queue's law; holders may only leave. -/
theorem Region.queueLaw_of_sublist {g h : Region} (hl : g.queueLaw) (hq : h.queue.Sublist g.queue)
    (hh : ∀ p, h.holds p → g.holds p) (hs : ∀ p, h.state ≠ .ownedBy p) : h.queueLaw := by
  refine ⟨hl.1.sublist (hq.map _), fun p hw hp => ?_, fun p hp => absurd hp (hs p)⟩
  obtain ⟨e, he, rfl⟩ := hw
  exact hl.2.1 e.port ⟨e, hq.subset he, rfl⟩ (hh _ hp)

/-! ### Changes that leave identity and job alone -/

/-- `h` comes from `g` with extent, generation, digest and job as they were, its law kept, and no port involved
that was not, but for those of `A`. -/
structure Region.Continues (A : Port → Prop) (g h : Region) : Prop where
  extent : h.extent = g.extent
  generation : h.generation = g.generation
  digest : h.digest = g.digest
  job : h.job = g.job
  lawful : g.lawful → h.lawful
  involves : ∀ p, h.involves p → g.involves p ∨ A p

variable {A : Port → Prop}

theorem Region.Continues.refl (g : Region) : g.Continues A g := ⟨rfl, rfl, rfl, rfl, id, fun _ h => .inl h⟩

theorem Region.Continues.trans {g h k : Region} (h1 : g.Continues A h) (h2 : h.Continues A k) :
    g.Continues A k where
  extent := h2.extent.trans h1.extent
  generation := h2.generation.trans h1.generation
  digest := h2.digest.trans h1.digest
  job := h2.job.trans h1.job
  lawful := h2.lawful ∘ h1.lawful
  involves p hp := (h2.involves p hp).elim (h1.involves p) .inr

/-- Leaving holders and entries out involves no further port. -/
theorem Region.involves_of_subset {g h : Region} (hh : ∀ p, h.holds p → g.holds p) (hq : h.queue ⊆ g.queue) (p : Port)
    (hp : h.involves p) : g.involves p ∨ A p := by
  obtain hp | ⟨e, he, rfl⟩ := hp
  · exact .inl (.inl (hh p hp))
  · exact .inl (.inr ⟨e, hq he, rfl⟩)

/-! #### Holds that end -/

theorem Region.holds_dropHold {g : Region} {p q : Port} : (g.dropHold p).holds q ↔ q ≠ p ∧ g.holds q := by
  by_cases h : q = p
  · subst h; simp [Region.holds, Region.dropHold]
  · simp [Region.holds, Region.dropHold, h]

/-- What a hold left after `p`'s is dropped was before. -/
theorem Region.get_dropHold {g : Region} {p q : Port} {x : Hold} (h : (g.dropHold p).holders.get q = some x) :
    q ≠ p ∧ g.holders.get q = some x := by
  by_cases hq : q = p
  · subst hq; simp [Region.dropHold] at h
  · exact ⟨hq, by simpa [Region.dropHold, hq] using h⟩

theorem Region.holdLawBut_dropHold {E : Port → Prop} {g : Region} {p : Port} (h : g.holdLawBut E) :
    (g.dropHold p).holdLawBut fun q => E q ∧ q ≠ p := by
  intro q x hx
  obtain ⟨hne, hx⟩ := Region.get_dropHold hx
  obtain ⟨h1, h2, h3⟩ := h q x hx
  exact ⟨h1, fun n hn => ⟨fun h0 => ⟨(h2 n hn).1 h0, hne⟩, (h2 n hn).2⟩, h3⟩

/-- The end of a SHARED hold keeps the law, and its port is no longer excepted (R38). -/
theorem Region.lawfulBut_endShared {E : Port → Prop} {g : Region} {p : Port} {x : Hold} (hx : g.holders.get p = some x)
    (hm : x.mode = .shared) (h : g.lawfulBut E) : (g.endShared p).lawfulBut fun q => E q ∧ q ≠ p := by
  have hs := h.holders.state_of_shared hx hm
  have hj : ∀ j, g.job = some j → j.kind = .digest := by simpa [Region.jobLaw, hs] using h.job
  have hst : (g.endShared p).state = .shared ∨ (g.endShared p).state = .free := by
    simp only [Region.endShared]; split <;> simp
  constructor
  case holders =>
    have hsh : ∀ q y, g.holders.get q = some y → y.mode = .shared := by
      have := h.holders; simp only [Region.holdersLaw, hs] at this; exact this.2
    by_cases hh : (g.dropHold p).held = true
    · obtain ⟨q, hq⟩ := (Region.held_iff _).mp hh
      have : (g.endShared p).state = .shared := by simp [Region.endShared, hh]
      simp only [Region.holdersLaw, this]
      exact ⟨⟨q, hq⟩, fun q y hy => hsh q y (Region.get_dropHold hy).2⟩
    · have : (g.endShared p).state = .free := by simp [Region.endShared, hh]
      simp only [Region.holdersLaw, this]
      exact fun q hq => hh ((Region.held_iff _).mpr ⟨q, hq⟩)
  case job => obtain hst | hst := hst <;> (simp only [Region.jobLaw, hst]; exact hj)
  case queue =>
    exact Region.queueLaw_of_sublist h.queue (List.Sublist.refl _) (fun q hq => (Region.holds_dropHold.mp hq).2)
      fun q hq => by obtain hst | hst := hst <;> rw [hst] at hq <;> cases hq
  case hold => exact Region.holdLawBut_dropHold h.hold
  case define => exact Region.defineLaw_of_ne fun a ha => by obtain hst | hst := hst <;> rw [hst] at ha <;> cases ha

/-- The end of an EXCLUSIVE hold keeps the law: the region drains, with no holder left (R39). -/
theorem Region.lawfulBut_endExclusive {E : Port → Prop} {g : Region} {p : Port} {x : Hold} (e : EndedHold) (a : PerPort Bool)
    (hx : g.holders.get p = some x) (hm : x.mode = .exclusive) (h : g.lawfulBut E) :
    (g.endExclusive p e a).lawfulBut fun q => E q ∧ q ≠ p := by
  obtain ⟨hs, honly⟩ := h.holders.of_exclusive hx hm
  have hj : g.job = none := by simpa [Region.jobLaw, hs] using h.job
  have hnone : ∀ q, ¬ (g.endExclusive p e a).holds q := fun q hq =>
    (Region.holds_dropHold.mp hq).1 (honly q (Region.holds_dropHold.mp hq).2)
  constructor
  case holders => exact Region.holdersLaw_of_none_held hnone nofun nofun
  case job => exact Region.jobLaw_of_none hj nofun
  case queue =>
    exact Region.queueLaw_of_sublist h.queue (List.Sublist.refl _) (fun q hq => (Region.holds_dropHold.mp hq).2)
      (fun _ => nofun)
  case hold => exact Region.holdLawBut_of_none_held hnone
  case define => exact Region.defineLaw_of_ne fun _ => nofun

theorem Region.lawful_of_lawfulBut_and {g : Region} {p : Port} (h : g.lawfulBut fun q => False ∧ q ≠ p) : g.lawful :=
  h.lawful fun _ _ hf => hf.1.elim

theorem Region.continues_endShared {g : Region} {p : Port} {x : Hold} (hx : g.holders.get p = some x)
    (hm : x.mode = .shared) : g.Continues A (g.endShared p) where
  extent := rfl
  generation := rfl
  digest := rfl
  job := rfl
  lawful h := Region.lawful_of_lawfulBut_and (Region.lawfulBut_endShared hx hm (Region.lawful_iff_lawfulBut.mp h))
  involves := Region.involves_of_subset (fun _ hq => (Region.holds_dropHold.mp hq).2) (List.Subset.refl _)

theorem Region.continues_endExclusive {g : Region} {p : Port} {x : Hold} (e : EndedHold) (a : PerPort Bool)
    (hx : g.holders.get p = some x) (hm : x.mode = .exclusive) : g.Continues A (g.endExclusive p e a) where
  extent := rfl
  generation := rfl
  digest := rfl
  job := rfl
  lawful h := Region.lawful_of_lawfulBut_and (Region.lawfulBut_endExclusive e a hx hm (Region.lawful_iff_lawfulBut.mp h))
  involves := Region.involves_of_subset (fun _ hq => (Region.holds_dropHold.mp hq).2) (List.Subset.refl _)

/-! #### Waiters -/

/-- Entries leave the queue, the others keeping their order (R24, R32). -/
theorem Region.continues_queue {g : Region} {l : List WaitEntry} (h : l.Sublist g.queue) :
    g.Continues A { g with queue := l } where
  extent := rfl
  generation := rfl
  digest := rfl
  job := rfl
  lawful hl := by
    obtain ⟨h1, h2, h3, h4, h5⟩ := hl
    refine ⟨h1, h2, ⟨h3.1.sublist (h.map _), fun p ⟨e, he, hp⟩ => h3.2.1 p ⟨e, h.subset he, hp⟩, fun p hp => ?_⟩, h4, h5⟩
    have := h3.2.2 p hp
    exact List.sublist_nil.mp (this ▸ h)
  involves := Region.involves_of_subset (fun _ => id) h.subset

theorem Region.continues_withdraw (g : Region) (p : Port) : g.Continues A (g.withdraw p) :=
  Region.continues_queue List.filter_sublist

theorem Region.not_waits_withdraw (g : Region) (p : Port) : ¬ (g.withdraw p).waits p := by
  simp [Region.withdraw, Region.waits]

/-- A port that neither holds nor waits joins the queue of a region that is not PRIVATE (R29). -/
theorem Region.continues_join {g : Region} {e : WaitEntry} (ha : A e.port) (hh : ¬ g.holds e.port)
    (hw : ¬ g.waits e.port) (hp : g.state.proprietor = none) :
    g.Continues A { g with queue := g.queue ++ [e] } where
  extent := rfl
  generation := rfl
  digest := rfl
  job := rfl
  lawful hl := by
    obtain ⟨h1, h2, ⟨hn, hq, -⟩, h4, h5⟩ := hl
    refine ⟨h1, h2, ⟨?_, ?_, ?_⟩, h4, h5⟩
    · simp only [List.map_append, List.map_cons, List.map_nil]
      refine List.Nodup.append hn (by simp) fun q h1 h2 => ?_
      obtain ⟨x, hx, rfl⟩ := List.mem_map.mp h1
      exact hw ⟨x, hx, by simpa using h2⟩
    · rintro p ⟨x, hx, rfl⟩
      rcases List.mem_append.mp hx with hx | hx
      · exact hq _ ⟨x, hx, rfl⟩
      · rw [List.mem_singleton.mp hx]; exact hh
    · intro p hs
      have hs : g.state = .ownedBy p := hs
      simp [hs, RegionState.proprietor] at hp
  involves p hp := by
    obtain hp | ⟨x, hx, rfl⟩ := hp
    · exact .inl (.inl hp)
    · rcases List.mem_append.mp hx with hx | hx
      · exact .inl (.inr ⟨x, hx, rfl⟩)
      · rw [List.mem_singleton.mp hx]; exact .inr ha

/-! #### Grants -/

/-- A hold of this mode can be created: in a FREE or SHARED region a SHARED one, in a FREE region with no job an
EXCLUSIVE one (R27, R31). -/
def Region.admits (g : Region) : Mode → Prop
  | .shared => g.state = .free ∨ g.state = .shared
  | .exclusive => g.state = .free ∧ g.job = none

theorem newHold_lawfulAt (lease : Half) (m : Mode) : (newHold lease m).lawfulAt lease False := by
  simp only [newHold, Hold.lawfulAt]
  split <;> simp_all

theorem Region.holds_grant {g : Region} {e : WaitEntry} {p : Port} :
    (g.grant e).holds p ↔ p = e.port ∨ g.holds p := by
  by_cases h : p = e.port
  · subst h; simp [Region.holds, Region.grant]
  · simp [Region.holds, Region.grant, h]

/-- A grant to a port that neither holds nor waits keeps the law (R28, R32). -/
theorem Region.lawful_grant {g : Region} {e : WaitEntry} (hl : g.lawful) (hw : ¬ g.waits e.port)
    (ha : g.admits e.mode) : (g.grant e).lawful := by
  obtain ⟨h1, h2, ⟨hn, hq, -⟩, h4, -⟩ := hl
  have hget : ∀ q x, (g.grant e).holders.get q = some x →
      (q = e.port ∧ x = newHold g.attrs.lease e.mode) ∨ (q ≠ e.port ∧ g.holders.get q = some x) := by
    intro q x hx
    by_cases hqe : q = e.port
    · subst hqe; exact .inl ⟨rfl, by simpa [Region.grant] using hx.symm⟩
    · exact .inr ⟨hqe, by simpa [Region.grant, hqe] using hx⟩
  refine ⟨?_, ?_, ⟨hn, fun p hp hh => ?_, fun p hp => ?_⟩, fun q x hx => ?_, fun a hd => ?_⟩
  · cases hm : e.mode with
    | shared =>
      have hs : (g.grant e).state = .shared := by simp [Region.grant, hm, Mode.heldState]
      simp only [Region.holdersLaw, hs]
      refine ⟨⟨e.port, Region.holds_grant.mpr (.inl rfl)⟩, fun q x hx => ?_⟩
      rcases hget q x hx with ⟨-, rfl⟩ | ⟨-, hx⟩
      · exact hm
      · rw [hm] at ha
        obtain ha | ha := ha <;> simp only [Region.holdersLaw, ha] at h1
        · exact absurd (Region.holds_iff.mpr ⟨x, hx⟩) (h1 q)
        · exact h1.2 q x hx
    | exclusive =>
      have hs : (g.grant e).state = .exclusive := by simp [Region.grant, hm, Mode.heldState]
      rw [hm] at ha
      have hnone : ∀ q, ¬ g.holds q := by simpa only [Region.holdersLaw, ha.1] using h1
      simp only [Region.holdersLaw, hs]
      exact ⟨e.port, newHold g.attrs.lease e.mode, by simp [Region.grant], hm,
        fun q hq => (Region.holds_grant.mp hq).resolve_right (hnone q)⟩
  · cases hm : e.mode with
    | shared =>
      have hs : (g.grant e).state = .shared := by simp [Region.grant, hm, Mode.heldState]
      rw [hm] at ha
      simp only [Region.jobLaw, hs]
      obtain ha | ha := ha <;> (simp only [Region.jobLaw, ha] at h2; exact h2)
    | exclusive =>
      have hs : (g.grant e).state = .exclusive := by simp [Region.grant, hm, Mode.heldState]
      rw [hm] at ha
      simp only [Region.jobLaw, hs]
      exact ha.2
  · rcases Region.holds_grant.mp hh with rfl | hh
    · exact hw hp
    · exact hq p hp hh
  · cases hm : e.mode <;> simp [Region.grant, hm, Mode.heldState] at hp
  · rcases hget q x hx with ⟨-, rfl⟩ | ⟨-, hx⟩
    · exact newHold_lawfulAt g.attrs.lease e.mode
    · exact h4 q x hx
  · cases hm : e.mode <;> simp [Region.grant, hm, Mode.heldState] at hd

/-- A grant to a port of `A` that does not wait (R28). -/
theorem Region.continues_grant {g : Region} {e : WaitEntry} (hA : A e.port) (hw : ¬ g.waits e.port)
    (ha : g.admits e.mode) : g.Continues A (g.grant e) where
  extent := rfl
  generation := rfl
  digest := rfl
  job := rfl
  lawful hl := Region.lawful_grant hl hw ha
  involves p hp := by
    obtain hp | hp := hp
    · rcases Region.holds_grant.mp hp with rfl | hp
      · exact .inr hA
      · exact .inl (.inl hp)
    · exact .inl (.inr hp)

/-- The first entry of the queue is granted (R31, R32). -/
theorem Region.continues_grant_front {g : Region} {e : WaitEntry} {rest : List WaitEntry} (hq : g.queue = e :: rest)
    (ha : g.admits e.mode) : g.Continues A ({ g with queue := rest }.grant e) where
  extent := rfl
  generation := rfl
  digest := rfl
  job := rfl
  lawful hl := by
    have hn : ¬ ({ g with queue := rest } : Region).waits e.port := by
      rintro ⟨x, hx, hp⟩
      have := hl.2.2.1.1
      rw [hq] at this
      exact (List.nodup_cons.mp this).1 (hp ▸ List.mem_map_of_mem hx)
    exact Region.lawful_grant ((Region.continues_queue (A := A) (hq ▸ List.sublist_cons_self e rest)).lawful hl) hn
      (by cases hm : e.mode <;> simpa [hm, Region.admits] using ha)
  involves p hp := by
    obtain hp | ⟨x, hx, rfl⟩ := hp
    · rcases Region.holds_grant.mp hp with rfl | hp
      · exact .inl (.inr ⟨e, hq ▸ List.mem_cons_self, rfl⟩)
      · exact .inl (.inl hp)
    · exact .inl (.inr ⟨x, hq ▸ List.mem_cons_of_mem _ hx, rfl⟩)

/-- A run of SHARED entries at the front of the queue is granted (R31, R32). -/
theorem Region.continues_grant_run {l : List WaitEntry} :
    ∀ {g : Region} {rest : List WaitEntry}, g.queue = l ++ rest → (∀ e ∈ l, e.mode = .shared) →
      g.admits .shared → g.Continues A (l.foldl Region.grant { g with queue := rest }) := by
  induction l with
  | nil => intro g rest hq _ _; simp only [List.nil_append] at hq; subst hq; exact Region.Continues.refl g
  | cons e l ih =>
    intro g rest hq hl ha
    have hm : e.mode = .shared := hl e List.mem_cons_self
    have front : g.Continues A ({ g with queue := l ++ rest }.grant e) := Region.continues_grant_front hq (hm ▸ ha)
    have run := ih (g := { g with queue := l ++ rest }.grant e) (rest := rest) rfl
      (fun x hx => hl x (List.mem_cons_of_mem _ hx)) (.inr (by simp [Region.grant, hm, Mode.heldState]))
    exact front.trans run

/-- What a grant pass grants: nothing, a run of SHARED entries, or one EXCLUSIVE entry (R31). -/
theorem Region.passRun_cases (g : Region) :
    g.passRun = [] ∨
    (g.admits .shared ∧ ∃ rest, g.queue = g.passRun ++ rest ∧ ∀ e ∈ g.passRun, e.mode = .shared) ∨
    ∃ e rest, g.passRun = [e] ∧ g.queue = e :: rest ∧ g.admits e.mode := by
  have run : ∀ l : List WaitEntry, (∃ rest, l = l.takeWhile WaitEntry.isShared ++ rest) ∧
      ∀ e ∈ l.takeWhile WaitEntry.isShared, e.mode = .shared := fun l =>
    ⟨⟨_, List.takeWhile_append_dropWhile.symm⟩, fun e he => by
      simpa [WaitEntry.isShared] using List.mem_takeWhile_imp he⟩
  unfold Region.passRun
  split
  · next e rest hs hq =>
    split
    · obtain ⟨⟨r, hr⟩, hm⟩ := run (e :: rest)
      exact .inr (.inl ⟨.inl hs, r, hq.trans hr, hm⟩)
    · next hm =>
      split
      · next hj =>
        refine .inr (.inr ⟨e, rest, rfl, hq, ?_⟩)
        have hx : e.mode = .exclusive := by
          cases h : e.mode
          · simp [WaitEntry.isShared, h] at hm
          · rfl
        rw [hx]
        exact ⟨hs, by simpa using hj⟩
      · exact .inl rfl
  · next e rest hs hq =>
    obtain ⟨⟨r, hr⟩, hm⟩ := run (e :: rest)
    exact .inr (.inl ⟨.inr hs, r, hq.trans hr, hm⟩)
  · exact .inl rfl

/-- A grant pass (R30 to R32). -/
theorem Region.continues_afterPass (g : Region) : g.Continues A g.afterPass := by
  unfold Region.afterPass
  rcases g.passRun_cases with h | ⟨ha, rest, hq, hm⟩ | ⟨e, rest, h, hq, ha⟩
  · rw [h]; exact Region.Continues.refl g
  · have : g.queue.drop g.passRun.length = rest := 
      (congrArg (List.drop g.passRun.length) hq).trans List.drop_left
    rw [this]
    exact Region.continues_grant_run hq hm ha
  · rw [h, hq]
    exact Region.continues_grant_front hq ha

/-! #### Holds that stay -/

/-- A hold replaced by one of the same mode keeps the law, if the new one meets the hold law. -/
theorem Region.lawfulBut_setHold {E E' : Port → Prop} {g : Region} {p : Port} {x y : Hold} (hy : g.holders.get p = some y)
    (hm : x.mode = y.mode) (hx : x.lawfulAt g.attrs.lease (E' p)) (hE : ∀ q, q ≠ p → E q → E' q)
    (hl : g.lawfulBut E) : ({ g with holders := g.holders.set p (some x) } : Region).lawfulBut E' := by
  have hget : ∀ q z, (g.holders.set p (some x)).get q = some z →
      (q = p ∧ z = x) ∨ (q ≠ p ∧ g.holders.get q = some z) := by
    intro q z hz
    by_cases hq : q = p
    · subst hq; exact .inl ⟨rfl, by simpa using hz.symm⟩
    · exact .inr ⟨hq, by simpa [hq] using hz⟩
  have hmode : ∀ q z, (g.holders.set p (some x)).get q = some z → ∃ w, g.holders.get q = some w ∧ w.mode = z.mode := by
    intro q z hz
    rcases hget q z hz with ⟨rfl, rfl⟩ | ⟨-, hz⟩
    exacts [⟨y, hy, hm.symm⟩, ⟨z, hz, rfl⟩]
  have hholds : ∀ q, ({ g with holders := g.holders.set p (some x) } : Region).holds q ↔ g.holds q := by
    intro q
    by_cases hq : q = p
    · subst hq; simp [Region.holds, hy]
    · simp [Region.holds, hq]
  obtain ⟨h1, h2, h3, h4, h5⟩ := hl
  refine ⟨?_, h2, ⟨h3.1, fun q hw hh => h3.2.1 q hw ((hholds q).mp hh), h3.2.2⟩, fun q z hz => ?_, h5⟩
  · cases hs : g.state <;> simp only [Region.holdersLaw, hs] at h1 ⊢
    case shared =>
      refine ⟨h1.1.imp fun q => (hholds q).mpr, fun q z hz => ?_⟩
      obtain ⟨w, hw, hwm⟩ := hmode q z hz
      exact hwm ▸ h1.2 q w hw
    case exclusive =>
      obtain ⟨q, z, hz, hzm, honly⟩ := h1
      by_cases hq : q = p
      · subst hq
        rw [hy] at hz; cases hz
        exact ⟨q, x, by simp, hm.trans hzm, fun n hn => honly n ((hholds n).mp hn)⟩
      · exact ⟨q, z, by simpa [hq] using hz, hzm, fun n hn => honly n ((hholds n).mp hn)⟩
    all_goals exact fun q hq => h1 q ((hholds q).mp hq)
  · rcases hget q z hz with ⟨rfl, rfl⟩ | ⟨hq, hz⟩
    · exact hx
    · obtain ⟨ha, hb, hc⟩ := h4 q z hz
      exact ⟨ha, fun n hn => ⟨fun h0 => hE q hq ((hb n hn).1 h0), (hb n hn).2⟩, hc⟩

/-- A hold replaced by one of the same mode involves no further port. -/
theorem Region.involves_setHold {g : Region} {p q : Port} {x y : Hold} (hy : g.holders.get p = some y)
    (hq : ({ g with holders := g.holders.set p (some x) } : Region).involves q) : g.involves q := by
  obtain hq | hq := hq
  · by_cases h : q = p
    · subst h; exact .inl (Region.holds_iff.mpr ⟨y, hy⟩)
    · exact .inl (by simpa [Region.holds, h] using hq)
  · exact .inr hq

theorem Region.continues_setHold {g : Region} {p : Port} {x y : Hold} (hy : g.holders.get p = some y)
    (hm : x.mode = y.mode) (hx : y.lawfulAt g.attrs.lease False → x.lawfulAt g.attrs.lease False) :
    g.Continues A { g with holders := g.holders.set p (some x) } where
  extent := rfl
  generation := rfl
  digest := rfl
  job := rfl
  lawful hl := by
    have hl := Region.lawful_iff_lawfulBut.mp hl
    exact Region.lawful_iff_lawfulBut.mpr (Region.lawfulBut_setHold hy hm (hx (hl.hold p y hy)) (fun _ _ => id) hl)
  involves q hq := .inl (Region.involves_setHold hy hq)

/-- The wrote flag of an EXCLUSIVE hold is set (R21). -/
theorem Region.continues_noteWrite (g : Region) (p : Port) : g.Continues A (g.noteWrite p) := by
  have note : g.Continues A
      (if g.exclusiveBy p then { g with holders := g.holders.set p ((g.holders.get p).map Hold.noted) } else g) := by
    split
    · next h =>
      obtain ⟨x, hx, hm⟩ := Region.exclusiveBy_iff.mp h
      rw [hx]
      refine Region.continues_setHold hx rfl fun ⟨h1, h2, _⟩ => ⟨h1, h2, fun hs => ?_⟩
      have hs : x.mode = .shared := hs
      rw [hm] at hs; cases hs
    · exact Region.Continues.refl g
  unfold Region.noteWrite
  split
  · exact Region.Continues.refl g
  · exact note

/-- A hold's count is its lease length again (R51). -/
theorem Region.continues_renew {g : Region} {p : Port} {x : Hold} (hx : g.holders.get p = some x)
    (hl : g.attrs.lease ≠ 0#16) :
    g.Continues A { g with
      holders := g.holders.set p (some { x with remaining := some g.attrs.lease, warned := false }) } :=
  Region.continues_setHold hx rfl fun ⟨_, _, h3⟩ => ⟨by simp [hl], fun n hn => by
    obtain rfl : g.attrs.lease = n := by simpa using hn
    exact ⟨fun h0 => hl h0, BitVec.le_refl _⟩, h3⟩

/-! #### Changes of state -/

/-- Where a change leaves no holder, its job, state and queue say whether the law is kept. -/
theorem Region.lawful_of_none_held {g : Region} (h : ∀ p, ¬ g.holds p) (h1 : g.state ≠ .shared) (h2 : g.state ≠ .exclusive)
    (hj : g.jobLaw) (hn : (g.queue.map WaitEntry.port).Nodup) (hq : ∀ p, g.state = .ownedBy p → g.queue = [])
    (hd : g.defineLaw) : g.lawful :=
  Region.lawful_iff_lawfulBut.mpr ⟨Region.holdersLaw_of_none_held h h1 h2, hj, ⟨hn, fun p _ => h p, hq⟩,
    Region.holdLawBut_of_none_held h, hd⟩

/-- EXCLUSIVE becomes PRIVATE: the hold is dropped, and there is no waiter (R79). -/
theorem Region.continues_makePrivate {g : Region} {p : Port} (he : g.exclusiveBy p = true) (hq : g.queue = []) :
    g.Continues A { g.dropHold p with state := .ownedBy p } where
  extent := rfl
  generation := rfl
  digest := rfl
  job := rfl
  lawful hl := by
    obtain ⟨x, hx, hm⟩ := Region.exclusiveBy_iff.mp he
    obtain ⟨hs, honly⟩ := hl.1.of_exclusive hx hm
    have hj : g.job = none := by simpa [Region.jobLaw, hs] using hl.2.1
    exact Region.lawful_of_none_held
      (fun q hq => (Region.holds_dropHold.mp hq).1 (honly q (Region.holds_dropHold.mp hq).2)) nofun nofun
      (Region.jobLaw_of_none hj nofun) hl.2.2.1.1 (fun _ _ => hq) (Region.defineLaw_of_ne fun _ => nofun)
  involves := Region.involves_of_subset (fun _ hq => (Region.holds_dropHold.mp hq).2) (List.Subset.refl _)

/-- PRIVATE becomes a drain toward the wipe (R85). -/
theorem Region.continues_relinquish {g : Region} {p : Port} (hs : g.state.proprietor = some p) (a : PerPort Bool) :
    g.Continues A { g with state := .draining ⟨.relinquish p, a⟩ } where
  extent := rfl
  generation := rfl
  digest := rfl
  job := rfl
  lawful hl := by
    have hs : g.state = .ownedBy p := by
      cases h : g.state <;> simp [h, RegionState.proprietor] at hs
      rw [hs]
    have hj : g.job = none := by simpa [Region.jobLaw, hs] using hl.2.1
    exact Region.lawful_of_none_held (hl.1.none_held (by simp [hs]) (by simp [hs])) nofun nofun
      (Region.jobLaw_of_none hj nofun) hl.2.2.1.1 (fun _ => nofun) (Region.defineLaw_of_ne fun _ => nofun)
  involves := Region.involves_of_subset (fun _ => id) (List.Subset.refl _)

/-- Outside WIPING the job of a lawful region is a DIGEST. -/
theorem Region.jobLaw.digest {g : Region} (h : g.jobLaw) (hs : g.state ≠ .wiping) {j : JobMark} (hj : g.job = some j) :
    j.kind = .digest := by
  unfold Region.jobLaw at h
  split at h
  case h_6 hs' => exact absurd hs' hs
  case h_4 =>
    split at h
    · exact h j hj
    all_goals rw [hj] at h; cases h
  case h_1 => exact h j hj
  case h_2 => exact h j hj
  all_goals rw [hj] at h; cases h

/-- RECLAIM of a region that is not WIPING empties it of holders and waiters, and it drains (R87). -/
theorem Region.continues_reclaimed {g : Region} (hs : g.state ≠ .wiping) (p : Port) (a : PerPort Bool) :
    g.Continues A (g.reclaimed p a) where
  extent := rfl
  generation := rfl
  digest := rfl
  job := rfl
  lawful hl := by
    refine Region.lawful_of_none_held (fun q => by simp [Region.reclaimed, Region.holds]) nofun nofun ?_
      (by simp [Region.reclaimed]) (fun _ => nofun) (Region.defineLaw_of_ne fun _ => nofun)
    simp only [Region.jobLaw, Region.reclaimed]
    exact fun j hj => hl.2.1.digest hs hj
  involves := Region.involves_of_subset (fun q => by simp [Region.reclaimed, Region.holds]) (by simp [Region.reclaimed])

/-- A fence of a drain completes (R65). -/
theorem Region.continues_fenceDone (g : Region) (p : Port) : g.Continues A (g.fenceDone p) := by
  unfold Region.fenceDone
  split
  · next d hs =>
    refine ⟨rfl, rfl, rfl, rfl, fun hl => ?_, fun q hq => .inl hq⟩
    refine Region.lawful_of_none_held (hl.1.none_held (by simp [hs]) (by simp [hs])) nofun nofun ?_ hl.2.2.1.1
      (fun _ => nofun) fun a ha => ?_
    · have := hl.2.1
      simpa only [Region.jobLaw, hs] using this
    · obtain ⟨w, aw⟩ := d
      simp only [RegionState.draining.injEq, Drain.mk.injEq] at ha
      exact hl.2.2.2.2 aw (by rw [hs, ha.1])
  · exact Region.Continues.refl g

/-- The attributes of a FREE region are replaced (R16). -/
theorem Region.continues_modify {g : Region} (hi : g.idle = true) (a : Attributes) :
    g.Continues A { g with attrs := a } where
  extent := rfl
  generation := rfl
  digest := rfl
  job := rfl
  lawful hl := by
    have hs : g.state = .free := by
      simp only [Region.idle, Bool.and_eq_true, beq_iff_eq] at hi
      exact hi.1.1
    exact Region.lawful_of_none_held (hl.1.none_held (by simp [hs]) (by simp [hs])) (by simp [hs]) (by simp [hs])
      hl.2.1 hl.2.2.1.1 (by simp [hs]) hl.2.2.2.2
  involves := Region.involves_of_subset (fun _ => id) (List.Subset.refl _)

/-! ### Every change of a region that stays defined -/

/-- `h` comes from `g` in one event: its extent as it was, its generation as it was or one further (R7), a digest
only with its generation (R8), its law kept, and no port involved that was not, but for those of `A`. -/
structure Region.Evolves (A : Port → Prop) (g h : Region) : Prop where
  extent : h.extent = g.extent
  generation : g.lawful → h.generation = g.generation ∨ h.generation = g.generation + 1#16
  digest : (∀ d, g.digest = some d → d.tag = g.generation) → ∀ d, h.digest = some d → d.tag = h.generation
  lawful : g.lawful → h.lawful
  involves : ∀ p, h.involves p → g.involves p ∨ A p

theorem Region.Continues.evolves {g h : Region} (c : g.Continues A h) : g.Evolves A h where
  extent := c.extent
  generation _ := .inl c.generation
  digest hd d h := by rw [c.generation]; exact hd d (c.digest ▸ h)
  lawful := c.lawful
  involves := c.involves

theorem Region.Evolves.refl (g : Region) : g.Evolves A g := (Region.Continues.refl g).evolves

theorem Region.Continues.trans_evolves {g h k : Region} (c : g.Continues A h) (e : h.Evolves A k) :
    g.Evolves A k where
  extent := e.extent.trans c.extent
  generation hl := c.generation ▸ e.generation (c.lawful hl)
  digest hd := e.digest (by rw [c.generation, c.digest]; exact hd)
  lawful := e.lawful ∘ c.lawful
  involves p hp := (e.involves p hp).elim (c.involves p) .inr

theorem Region.Evolves.trans_continues {g h k : Region} (e : g.Evolves A h) (c : h.Continues A k) :
    g.Evolves A k where
  extent := c.extent.trans e.extent
  generation hl := by rw [c.generation]; exact e.generation hl
  digest hd d h := by rw [c.generation]; exact e.digest hd d (c.digest ▸ h)
  lawful := c.lawful ∘ e.lawful
  involves p hp := (c.involves p hp).elim (e.involves p) .inr

/-- The job field changes, with the generation and the digest as they were. -/
theorem Region.evolves_job {g : Region} (j : Option JobMark) (h : g.lawful → ({ g with job := j } : Region).jobLaw) :
    g.Evolves A { g with job := j } where
  extent := rfl
  generation _ := .inl rfl
  digest := id
  lawful hl := ⟨hl.1, h hl, hl.2.2.1, hl.2.2.2.1, hl.2.2.2.2⟩
  involves _ := .inl

/-- A queued job begins to run (R10, R95). -/
theorem Region.evolves_started (g : Region) :
    g.Evolves A { g with job := g.job.map JobMark.started } := by
  refine Region.evolves_job _ fun hl => ?_
  have hj := hl.2.1
  have kind : ∀ k, (∀ j, g.job = some j → j.kind = k) →
      ∀ j, g.job.map JobMark.started = some j → j.kind = k := by
    rintro k hk j hj
    obtain ⟨i, hi, rfl⟩ := Option.map_eq_some_iff.mp hj
    exact hk i hi
  cases hs : g.state <;> simp only [Region.jobLaw, hs] at hj ⊢
  case free => exact kind _ hj
  case shared => exact kind _ hj
  case draining d =>
    cases hr : d.reason <;> simp only [hr] at hj ⊢
    case reclaim => exact kind _ hj
    all_goals simp [hj]
  case wiping =>
    obtain ⟨j, hj, hk⟩ := hj
    exact ⟨j.started, by simp [hj], hk⟩
  all_goals simp [hj]

/-- A DIGEST job for a SHARED holder (R101). -/
theorem Region.evolves_digestJob {g : Region} {p : Port} (hs : (g.holders.get p).map Hold.mode = some .shared)
    (q : Option Port) : g.Evolves A { g with job := some ⟨.digest, false, q⟩ } := by
  refine Region.evolves_job _ fun hl => ?_
  obtain ⟨x, hx, hm⟩ := Option.map_eq_some_iff.mp hs
  have := hl.1.state_of_shared hx hm
  simp only [Region.jobLaw, this]
  exact fun j hj => (Option.some.inj hj) ▸ rfl

/-- A region that drains for a reason but RECLAIM has no job. -/
theorem Region.jobLaw.none_of_drain {g : Region} (h : g.jobLaw) {d : Drain} (hs : g.state = .draining d)
    (hr : ∀ p, d.reason ≠ .reclaim p) : g.job = none := by
  simp only [Region.jobLaw, hs] at h
  split at h
  · next p hp => exact absurd hp (hr p)
  all_goals exact h

/-- The settle's steps, with or without an automatic DIGEST job queued (R68). -/
theorem Region.evolves_settled {g : Region} {e : EndedHold} {a : PerPort Bool} (hs : g.state = .draining ⟨.release e, a⟩)
    (j : Option JobMark) (hj : ∀ i, j = some i → i.kind = .digest) :
    g.Evolves A { g.settled e with job := j } where
  extent := rfl
  generation _ := by
    simp only [Region.settled]
    split
    exacts [.inr rfl, .inl rfl]
  digest hd d h := by
    simp only [Region.settled] at h ⊢
    split at h
    · cases h
    · next hw => rw [if_neg hw]; exact hd d h
  lawful hl := Region.lawful_of_none_held (fun p hp => hl.1.none_held (by simp [hs]) (by simp [hs]) p hp)
    nofun nofun hj hl.2.2.1.1 (fun _ => nofun) (Region.defineLaw_of_ne fun _ => nofun)
  involves _ := .inl

theorem Region.evolves_opened {g : Region} {a : PerPort Bool} (hs : g.state = .draining ⟨.define, a⟩) :
    g.Evolves A g.opened where
  extent := rfl
  generation hl := .inl (hl.2.2.2.2 a hs).1.symm
  digest _ _ := nofun
  lawful hl := Region.lawful_of_none_held (fun p hp => hl.1.none_held (by simp [hs]) (by simp [hs]) p hp)
    nofun nofun (Region.jobLaw_of_none (hl.2.1.none_of_drain hs (fun _ => nofun)) nofun) hl.2.2.1.1 (fun _ => nofun)
    (Region.defineLaw_of_ne fun _ => nofun)
  involves _ := .inl

/-- A drain toward the wipe ends: WIPING with the WIPE job queued (R70). -/
theorem Region.evolves_wiping {g : Region} {d : Drain} (hs : g.state = .draining d) (q : Option Port) :
    g.Evolves A { g with state := .wiping, job := some ⟨.wipe, false, q⟩ } where
  extent := rfl
  generation _ := .inl rfl
  digest := id
  lawful hl := Region.lawful_of_none_held (fun p hp => hl.1.none_held (by simp [hs]) (by simp [hs]) p hp)
    nofun nofun ⟨_, rfl, rfl⟩ hl.2.2.1.1 (fun _ => nofun) (Region.defineLaw_of_ne fun _ => nofun)
  involves _ := .inl

/-- The completion of a wipe (R97). -/
theorem Region.evolves_wiped {g : Region} {j : JobMark} (hj : g.job = some j) (hk : j.kind = .wipe) :
    g.Evolves A g.wiped where
  extent := rfl
  generation _ := .inr rfl
  digest _ _ := nofun
  lawful hl := by
    have hs : g.state = .wiping := by
      by_contra h
      have := hl.2.1.digest h hj
      rw [hk] at this; cases this
    exact Region.lawful_of_none_held (fun p hp => hl.1.none_held (by simp [hs]) (by simp [hs]) p hp)
      nofun nofun (Region.jobLaw_of_none rfl nofun) hl.2.2.1.1 (fun _ => nofun) (Region.defineLaw_of_ne fun _ => nofun)
  involves _ := .inl

/-- The completion of a digest (R100). -/
theorem Region.evolves_digested {g : Region} {j : JobMark} (hj : g.job = some j) (hk : j.kind = .digest) (v : Word) :
    g.Evolves A (g.digested v) where
  extent := rfl
  generation _ := .inl rfl
  digest _ d h := by
    obtain rfl : (⟨v, g.generation⟩ : DigestTag) = d := by simpa [Region.digested] using h
    rfl
  lawful hl := by
    have hw : g.state ≠ .wiping := by
      intro hs
      obtain ⟨i, hi, hik⟩ : ∃ i, g.job = some i ∧ i.kind = .wipe := by simpa only [Region.jobLaw, hs] using hl.2.1
      rw [hj] at hi; cases hi
      rw [hk] at hik; cases hik
    refine ⟨hl.1, Region.jobLaw_of_none rfl hw, hl.2.2.1, hl.2.2.2.1, Region.defineLaw_of_ne fun a ha => ?_⟩
    have := hl.2.1.none_of_drain (g := g) ha (fun _ => nofun)
    rw [hj] at this; cases this
  involves _ := .inl

/-- The region DEFINE makes is lawful and involves nobody (R14). -/
theorem freshRegion_lawful (e : Extent) (a : Attributes) : (freshRegion e a).lawful :=
  Region.lawful_of_none_held (fun p => by simp [freshRegion, Region.holds]) nofun nofun
    (Region.jobLaw_of_none rfl nofun) (by simp [freshRegion]) (fun _ => nofun) fun _ _ => ⟨rfl, rfl, rfl⟩

theorem freshRegion_involves (e : Extent) (a : Attributes) (p : Port) : ¬ (freshRegion e a).involves p := by
  simp [Region.involves, Region.holds, Region.waits, freshRegion]

end Sys2Proof.Machine
end

section
/-! SUPPORT. What one operation of the lock engine does to the region it works on, and what it leaves of the
engine's jobs: each operation is proved once to be one of the changes of a region, and later proofs cite that. -/

namespace Sys2Proof.Machine

/-! ### The engine's jobs as the regions see them -/

/-- The job of slot `r` with its region's extent; none where the slot is UNDEFINED or has no job. -/
def State.jobAt (s : State) (r : RegionIx) : Option (JobMark × Extent) :=
  (s.slot r).bind fun g => g.job.map fun j => (j, g.extent)

theorem State.jobAt_of_slot {s : State} {r : RegionIx} {g : Region} (h : s.slot r = some g) :
    s.jobAt r = g.job.map fun j => (j, g.extent) := by simp [State.jobAt, h]

theorem State.jobAt_of_none {s : State} {r : RegionIx} (h : s.slot r = none) : s.jobAt r = none := by
  simp [State.jobAt, h]

/-- `t` has the part state, the sweep engine and the job fields of `s`. -/
structure State.SameJobs (s t : State) : Prop where
  part : t.part = s.part
  jobQueue : t.jobQueue = s.jobQueue
  current : t.current = s.current
  starts : t.starts = s.starts
  reports : t.reports = s.reports
  jobAt : ∀ r, t.jobAt r = s.jobAt r

theorem State.SameJobs.refl (s : State) : s.SameJobs s := ⟨rfl, rfl, rfl, rfl, rfl, fun _ => rfl⟩

theorem State.SameJobs.trans {s t u : State} (h : s.SameJobs t) (k : t.SameJobs u) : s.SameJobs u where
  part := k.part.trans h.part
  jobQueue := k.jobQueue.trans h.jobQueue
  current := k.current.trans h.current
  starts := k.starts.trans h.starts
  reports := k.reports.trans h.reports
  jobAt r := (k.jobAt r).trans (h.jobAt r)

/-! ### Changes of one region -/

/-- `t` is `s` with slot `r` changed as `R` says, and nothing new for the sweep engine. -/
structure State.Changes (R : Region → Region → Prop) (s t : State) (r : RegionIx) : Prop
    extends State.RegionEvent s t r where
  jobQueue : t.jobQueue = s.jobQueue
  current : t.current = s.current
  starts : t.starts = s.starts
  region : Option.Rel R (s.slot r) (t.slot r)

theorem optionRel_refl {α : Type} {R : α → α → Prop} (h : ∀ a, R a a) (x : Option α) : Option.Rel R x x := by
  cases x
  exacts [.none, .some (h _)]

theorem optionRel_comp {α : Type} {R R' R'' : α → α → Prop} (h : ∀ a b c, R a b → R' b c → R'' a c) {x y z : Option α}
    (h1 : Option.Rel R x y) (h2 : Option.Rel R' y z) : Option.Rel R'' x z := by
  cases h1 <;> cases h2
  exacts [.some (h _ _ _ ‹_› ‹_›), .none]

section Changes
variable {R R' R'' : Region → Region → Prop} {s t u : State} {r : RegionIx}

theorem State.Changes.refl (h : ∀ g, R g g) (s : State) (r : RegionIx) : s.Changes R s r :=
  ⟨State.RegionEvent.refl s r, rfl, rfl, rfl, optionRel_refl h _⟩

theorem State.Changes.comp (h : ∀ a b c, R a b → R' b c → R'' a c) (h1 : s.Changes R t r) (h2 : t.Changes R' u r) :
    s.Changes R'' u r :=
  ⟨h1.toRegionEvent.trans h2.toRegionEvent, h2.jobQueue.trans h1.jobQueue, h2.current.trans h1.current,
    h2.starts.trans h1.starts, optionRel_comp h h1.region h2.region⟩

theorem State.Changes.mono (h : ∀ a b, R a b → R' a b) (c : s.Changes R t r) : s.Changes R' t r :=
  ⟨c.toRegionEvent, c.jobQueue, c.current, c.starts, by
    have := c.region
    generalize s.slot r = x at this ⊢
    generalize t.slot r = y at this ⊢
    cases this
    exacts [.some (h _ _ ‹_›), .none]⟩

theorem State.changes_of_slots (h : ∀ g, R g g) (e : s.RegionEvent t r) (h1 : t.jobQueue = s.jobQueue)
    (h2 : t.current = s.current) (h3 : t.starts = s.starts) (h4 : t.slot r = s.slot r) : s.Changes R t r :=
  ⟨e, h1, h2, h3, h4 ▸ optionRel_refl h _⟩

theorem State.changes_setSlot {g h : Region} (hg : s.slot r = some g) (hR : R g h) :
    s.Changes R (s.setSlot r (some h)) r :=
  ⟨State.regionEvent_setSlot s r _, rfl, rfl, rfl, by rw [hg, State.slot_setSlot_self]; exact .some hR⟩

theorem State.changes_updRegion {f : Region → Region} (s : State) (r : RegionIx) (h : ∀ g, R g (f g)) :
    s.Changes R (s.updRegion r f) r := by
  refine ⟨State.regionEvent_setSlot s r _, rfl, rfl, rfl, ?_⟩
  rw [State.slot_updRegion, if_pos rfl]
  cases s.slot r
  exacts [.none, .some (h _)]

theorem State.changes_offer (h : ∀ g, R g g) (s : State) (r : RegionIx) (p : Port) (x : Record) :
    s.Changes R (s.offer p x) r := State.changes_of_slots h (State.regionEvent_offer s r p x) rfl rfl rfl rfl

theorem State.changes_sendFence (h : ∀ g, R g g) (s : State) (r q : RegionIx) (p : Port) :
    s.Changes R (s.sendFence q p) r :=
  State.changes_of_slots h (State.regionEvent_sendFence s r q p) rfl rfl rfl rfl

/-- What a defined slot becomes. -/
theorem State.Changes.of_slot {g : Region} (c : s.Changes R t r) (h : s.slot r = some g) :
    ∃ k, t.slot r = some k ∧ R g k := by
  have := h ▸ c.region
  cases hx : t.slot r <;> rw [hx] at this <;> cases this
  exact ⟨_, rfl, ‹_›⟩

end Changes

variable {A : Port → Prop}

/-- An operation on region `r` that leaves its identity and its job alone. -/
abbrev State.Continues (A : Port → Prop) (s t : State) (r : RegionIx) : Prop := s.Changes (Region.Continues A) t r

theorem State.Continues.refl (s : State) (r : RegionIx) : s.Continues A s r :=
  State.Changes.refl Region.Continues.refl s r

theorem State.Continues.trans {s t u : State} {r : RegionIx} (h1 : s.Continues A t r) (h2 : t.Continues A u r) :
    s.Continues A u r := 
  State.Changes.comp (R := Region.Continues A) (R' := Region.Continues A) (fun _ _ _ => Region.Continues.trans) h1 h2

theorem State.Continues.offer (s : State) (r : RegionIx) (p : Port) (x : Record) : s.Continues A (s.offer p x) r :=
  State.changes_offer Region.Continues.refl s r p x

theorem State.Continues.sendFence (s : State) (r q : RegionIx) (p : Port) : s.Continues A (s.sendFence q p) r :=
  State.changes_sendFence Region.Continues.refl s r q p

theorem State.Continues.setSlot {s : State} {r : RegionIx} {g h : Region} (hg : s.slot r = some g)
    (c : g.Continues A h) : s.Continues A (s.setSlot r (some h)) r := State.changes_setSlot hg c

/-- Operations done one after another on the same region. -/
theorem State.Continues.foldl {α : Type} {r : RegionIx} {f : State → α → State}
    (hf : ∀ (s : State) (a : α), s.Continues A (f s a) r) (l : List α) (s : State) :
    s.Continues A (l.foldl f s) r :=
  State.foldl_keeps (P := fun t => s.Continues A t r) (fun t a h => h.trans (hf t a)) l (State.Continues.refl s r)

/-! ### The operations that leave identity and job alone -/

theorem State.continues_grantPass (s : State) (r : RegionIx) : s.Continues A (s.grantPass r) r := by
  unfold State.grantPass
  split
  · exact State.Continues.refl s r
  · next g hg =>
    exact (State.Continues.setSlot hg (Region.continues_afterPass g)).trans
      (State.Continues.foldl (fun t e => State.Continues.offer t r (WaitEntry.port e) _) _ _)

/-- The end of a hold that is there: a SHARED one is removed, an EXCLUSIVE one drains (R38, R39). -/
theorem State.endHold_of_hold {s : State} {r : RegionIx} {p : Port} {g : Region} {x : Hold} (revoked : Bool)
    (hg : s.slot r = some g) (hx : g.holders.get p = some x) :
    (x.mode = .shared ∧ s.endHold r p revoked = s.setSlot r (some (g.endShared p))) ∨
    (x.mode = .exclusive ∧ s.endHold r p revoked =
      (s.setSlot r (some (g.endExclusive p ⟨x.wrote, revoked⟩ (onlyPort p)))).sendFence r p) := by
  cases hm : x.mode
  · exact .inl ⟨rfl, by simp [State.endHold, hg, hx, hm]⟩
  · exact .inr ⟨rfl, by simp [State.endHold, hg, hx, hm]⟩

theorem State.continues_endHold (s : State) (r : RegionIx) (p : Port) (revoked : Bool) :
    s.Continues A (s.endHold r p revoked) r := by
  rcases State.endHold_cases s r p revoked with h | ⟨g, x, hg, hx, hm, h⟩ | ⟨g, x, hg, hx, hm, h⟩ <;> rw [h]
  · exact State.Continues.refl s r
  · exact State.Continues.setSlot hg (Region.continues_endShared hx hm)
  · exact (State.Continues.setSlot hg (Region.continues_endExclusive _ _ hx hm)).trans (State.Continues.sendFence _ r r p)

/-- The end of a hold or a wait at DETACH: neither, one or the other (R41, R163). -/
theorem State.leaveRegion_cases (s : State) (p : Port) (r : RegionIx) :
    (s.leaveRegion p r = s ∧ ∀ g, s.slot r = some g → ¬ g.involves p) ∨
    (∃ g, s.slot r = some g ∧ g.holds p ∧ s.leaveRegion p r = (s.endHold r p false).grantPass r) ∨
    ∃ g, s.slot r = some g ∧ ¬ g.holds p ∧ s.leaveRegion p r = (s.setSlot r (some (g.withdraw p))).grantPass r := by
  unfold State.leaveRegion
  split
  · next hg => exact .inl ⟨rfl, by simp [hg]⟩
  · next g hg =>
    split
    · next hh => exact .inr (.inl ⟨g, hg, hh, rfl⟩)
    · next hh =>
      split
      · exact .inr (.inr ⟨g, hg, hh, rfl⟩)
      · next hw =>
        refine .inl ⟨rfl, fun k hk hi => ?_⟩
        obtain rfl : g = k := by rw [hg] at hk; exact Option.some.inj hk
        exact hi.elim hh fun h => hw (Region.waitsFor_iff.mpr h)

theorem State.continues_leaveRegion (s : State) (p : Port) (r : RegionIx) : s.Continues A (s.leaveRegion p r) r := by
  rcases s.leaveRegion_cases p r with ⟨h, -⟩ | ⟨g, _, _, h⟩ | ⟨g, hg, _, h⟩ <;> rw [h]
  · exact State.Continues.refl s r
  · exact (State.continues_endHold s r p false).trans (State.continues_grantPass _ r)
  · exact (State.Continues.setSlot hg (Region.continues_withdraw g p)).trans (State.continues_grantPass _ r)

theorem State.continues_noteWrite (s : State) (p : Port) (w : StoreAddr) : ∃ r, s.Continues A (s.noteWrite p w) r := by
  rcases s.noteWrite_cases p w with h | ⟨r, h⟩ <;> rw [h]
  · exact ⟨0, State.Continues.refl s 0⟩
  · exact ⟨r, State.changes_updRegion s r fun g => Region.continues_noteWrite g p⟩

theorem State.continues_reclaimRecords (s : State) (r : RegionIx) (g : Region) :
    s.Continues A (s.reclaimRecords r g) r := by
  refine (State.Continues.foldl (fun t q => ?_) allPorts s).trans
    (State.Continues.foldl (fun t e => State.Continues.offer t r (WaitEntry.port e) _) _ _)
  unfold State.revokeHolder
  split
  · exact State.Continues.refl t r
  · exact State.Continues.offer t r q _

theorem State.slot_reclaimRecords (s : State) (r q : RegionIx) (g : Region) :
    (s.reclaimRecords r g).slot q = s.slot q := by
  refine State.foldl_keeps (P := fun t => t.slot q = s.slot q) (fun t e h => ?_) g.queue
    (State.foldl_keeps (P := fun t => t.slot q = s.slot q) (fun t p h => ?_) allPorts rfl)
  · exact h
  · unfold State.revokeHolder
    split <;> exact h

/-- The records of a RECLAIM, then the region emptied and draining (R87, R88). -/
theorem State.continues_reclaimed {s : State} {r : RegionIx} {g : Region} (hg : s.slot r = some g)
    (hs : g.state ≠ .wiping) (p : Port) (a : PerPort Bool) :
    s.Continues A ((s.reclaimRecords r g).setSlot r (some (g.reclaimed p a))) r :=
  (State.continues_reclaimRecords s r g).trans
    (State.Continues.setSlot ((State.slot_reclaimRecords s r r g).trans hg) (Region.continues_reclaimed hs p a))

theorem State.continues_fenceIf (s : State) (r q : RegionIx) (a : PerPort Bool) (p : Port) :
    s.Continues A (s.fenceIf q a p) r := by
  unfold State.fenceIf
  split
  · exact State.Continues.sendFence s r q p
  · exact State.Continues.refl s r

/-! ### A tick in one region -/

/-- A part of a tick: identity and job as they were, the law kept with the ports of `E` excepted before and those of
`E'` after, and no further port involved. -/
structure Region.Ticks (E E' : Port → Prop) (g h : Region) : Prop where
  extent : h.extent = g.extent
  generation : h.generation = g.generation
  digest : h.digest = g.digest
  job : h.job = g.job
  lawful : g.lawfulBut E → h.lawfulBut E'
  involves : ∀ p, h.involves p → g.involves p

theorem Region.lawfulBut.mono {E E' : Port → Prop} {g : Region} (hE : ∀ p, E p → E' p) (h : g.lawfulBut E) :
    g.lawfulBut E' :=
  ⟨h.holders, h.job, h.queue, fun p x hx =>
    let ⟨h1, h2, h3⟩ := h.hold p x hx
    ⟨h1, fun n hn => ⟨fun h0 => hE p ((h2 n hn).1 h0), (h2 n hn).2⟩, h3⟩, h.define⟩

/-- A port without a hold at 0 needs no exception. -/
theorem Region.lawfulBut.except {E : Port → Prop} {g : Region} {p : Port}
    (hp : ∀ x, g.holders.get p = some x → x.remaining ≠ some 0#16) (h : g.lawfulBut E) :
    g.lawfulBut fun q => E q ∧ q ≠ p :=
  ⟨h.holders, h.job, h.queue, fun q x hx =>
    let ⟨h1, h2, h3⟩ := h.hold q x hx
    ⟨h1, fun n hn => ⟨fun h0 => ⟨(h2 n hn).1 h0, fun e => hp x (e ▸ hx) (h0 ▸ hn)⟩, (h2 n hn).2⟩, h3⟩, h.define⟩

theorem Region.Ticks.of_eq {E E' : Port → Prop} {g : Region} (h : g.lawfulBut E → g.lawfulBut E') : g.Ticks E E' g :=
  ⟨rfl, rfl, rfl, rfl, h, fun _ => id⟩

theorem Region.Ticks.trans {E E' E'' : Port → Prop} {g h k : Region} (h1 : g.Ticks E E' h) (h2 : h.Ticks E' E'' k) :
    g.Ticks E E'' k :=
  ⟨h2.extent.trans h1.extent, h2.generation.trans h1.generation, h2.digest.trans h1.digest, h2.job.trans h1.job,
    h2.lawful ∘ h1.lawful, fun p hp => h1.involves p (h2.involves p hp)⟩

theorem Region.Continues.ticks {g h : Region} (c : g.Continues (fun _ => False) h) :
    g.Ticks (fun _ => False) (fun _ => False) h :=
  ⟨c.extent, c.generation, c.digest, c.job,
    fun hl => Region.lawful_iff_lawfulBut.mp (c.lawful (Region.lawful_iff_lawfulBut.mpr hl)),
    fun p hp => (c.involves p hp).resolve_right id⟩

theorem Region.Ticks.continues {g h : Region} (c : g.Ticks (fun _ => False) (fun _ => False) h) : g.Continues A h :=
  ⟨c.extent, c.generation, c.digest, c.job,
    fun hl => Region.lawful_iff_lawfulBut.mpr (c.lawful (Region.lawful_iff_lawfulBut.mp hl)),
    fun p hp => .inl (c.involves p hp)⟩

/-- Where nothing happens to slot `r`, the exceptions may change as its region allows. -/
theorem State.ticks_refl {E E' : Port → Prop} {s : State} {r : RegionIx}
    (h : ∀ g, s.slot r = some g → g.lawfulBut E → g.lawfulBut E') : s.Changes (Region.Ticks E E') s r := by
  refine ⟨State.RegionEvent.refl s r, rfl, rfl, rfl, ?_⟩
  cases hg : s.slot r
  exacts [.none, .some (Region.Ticks.of_eq (h _ hg))]

/-- A part of a tick of region `r`. -/
abbrev State.Ticks (E E' : Port → Prop) (s t : State) (r : RegionIx) : Prop := s.Changes (Region.Ticks E E') t r

theorem State.Ticks.trans {E E' E'' : Port → Prop} {s t u : State} {r : RegionIx} (h1 : s.Ticks E E' t r)
    (h2 : t.Ticks E' E'' u r) : s.Ticks E E'' u r :=
  State.Changes.comp (R := Region.Ticks E E') (R' := Region.Ticks E' E'') (fun _ _ _ => Region.Ticks.trans) h1 h2

theorem State.Ticks.offer {E : Port → Prop} (s : State) (r : RegionIx) (p : Port) (x : Record) :
    s.Ticks E E (s.offer p x) r := State.changes_offer (fun _ => Region.Ticks.of_eq id) s r p x

theorem State.Ticks.setSlot {E E' : Port → Prop} {s : State} {r : RegionIx} {g h : Region} (hg : s.slot r = some g)
    (c : g.Ticks E E' h) : s.Ticks E E' (s.setSlot r (some h)) r := State.changes_setSlot hg c

theorem tickDown_le (n : Half) : tickDown n ≤ n := by
  unfold tickDown
  split <;> bv_omega

theorem Hold.lawfulAt_tick {lease : Half} {z : Prop} {x : Hold} (h : x.lawfulAt lease z) (w : Bool) :
    ({ x.tick with warned := w } : Hold).lawfulAt lease True := by
  obtain ⟨h1, h2, h3⟩ := h
  refine ⟨by simpa [Hold.tick] using h1, fun n hn => ⟨fun _ => trivial, ?_⟩, h3⟩
  obtain ⟨m, hm, rfl⟩ := Option.map_eq_some_iff.mp hn
  exact BitVec.le_trans (tickDown_le m) (h2 m hm).2

/-- One hold counts down: its port may now hold with a count of 0 (R46). -/
theorem State.ticks_tickHold {E : Port → Prop} (s : State) (r : RegionIx) (p : Port) :
    s.Ticks E (fun q => E q ∨ q = p) (s.tickHold r p) r := by
  have tick : ∀ {g : Region} {x : Hold} (w : Bool), s.slot r = some g → g.holders.get p = some x →
      g.Ticks E (fun q => E q ∨ q = p) { g with holders := g.holders.set p (some { x.tick with warned := w }) } := by
    intro g x w hg hx
    refine ⟨rfl, rfl, rfl, rfl, fun hl => ?_, fun q => Region.involves_setHold hx⟩
    refine Region.lawfulBut_setHold hx rfl ?_ (fun _ _ => .inl) hl
    simpa using Hold.lawfulAt_tick (hl.hold p x hx) w
  unfold State.tickHold
  split
  · next hg => exact State.ticks_refl fun g h => by simp [hg] at h
  · next g hg =>
    split
    · exact State.ticks_refl fun g _ => Region.lawfulBut.mono fun _ => .inl
    · next x hx =>
      split
      · exact (State.Ticks.setSlot hg (tick true hg hx)).trans (State.Ticks.offer _ r p _)
      · exact State.Ticks.setSlot hg (tick x.tick.warned hg hx)

/-- One hold whose count is 0 ends: its port is no longer excepted (R52 to R54). -/
theorem State.ticks_expireHold {E : Port → Prop} (s : State) (r : RegionIx) (p : Port) :
    s.Ticks E (fun q => E q ∧ q ≠ p) (s.expireHold r p) r := by
  unfold State.expireHold
  split
  · next hg => exact State.ticks_refl fun g h => by simp [hg] at h
  · next g hg =>
    have same : ∀ k, s.slot r = some k → k = g := fun k hk => by rw [hg] at hk; exact (Option.some.inj hk).symm
    split
    · next hn => exact State.ticks_refl fun k hk => Region.lawfulBut.except (by simp [same k hk, hn])
    · next x hx =>
      split
      · refine (State.Ticks.offer s r p (.revoked r x.mode.leaseRight .lease)).trans ?_
        generalize ht : s.offer p (.revoked r x.mode.leaseRight .lease) = t
        have hgt : t.slot r = some g := by rw [← ht]; exact hg
        have subset : ∀ {k : Region}, (∀ q, k.holds q ↔ q ≠ p ∧ g.holds q) → k.queue = g.queue →
            ∀ q, k.involves q → g.involves q := fun h1 h2 q hq =>
          (Region.involves_of_subset (A := fun _ => False) (fun q hq => ((h1 q).mp hq).2) (h2 ▸ List.Subset.refl _) q hq).resolve_right id
        rcases State.endHold_of_hold true hgt hx with ⟨hm, h⟩ | ⟨hm, h⟩ <;> rw [h]
        · exact State.Ticks.setSlot hgt ⟨rfl, rfl, rfl, rfl, Region.lawfulBut_endShared hx hm,
            subset (k := g.endShared p) (fun _ => Region.holds_dropHold) rfl⟩
        · exact (State.Ticks.setSlot (h := g.endExclusive p ⟨x.wrote, true⟩ (onlyPort p)) hgt
            ⟨rfl, rfl, rfl, rfl, Region.lawfulBut_endExclusive _ _ hx hm,
              subset (fun _ => Region.holds_dropHold) rfl⟩).trans
            (State.changes_sendFence (fun g => Region.Ticks.of_eq id) _ r r p)
      · next hx0 =>
        refine State.ticks_refl fun k hk => Region.lawfulBut.except fun y hy => ?_
        rw [same k hk, hx] at hy
        cases hy
        simpa [Hold.expired] using hx0

/-- After the expiry in a region no port is excepted (R55). -/
theorem State.ticks_expireRegion {E : Port → Prop} (s : State) (r : RegionIx) :
    s.Ticks E (fun _ => False) (s.expireRegion r) r := by
  unfold State.expireRegion
  split
  · next hg => exact State.ticks_refl fun g h => by simp [hg] at h
  · next g hg =>
    split
    · refine State.Ticks.trans (E' := fun _ => False) ?_
        (State.Changes.mono (fun _ _ => Region.Continues.ticks) (State.continues_grantPass _ r))
      have chain := (((State.ticks_expireHold (E := E) s r .p0).trans (State.ticks_expireHold _ r .p1)).trans
        (State.ticks_expireHold _ r .p2)).trans (State.ticks_expireHold _ r .p3)
      refine State.Changes.mono (fun a b h => ?_) chain
      exact h.trans (Region.Ticks.of_eq (Region.lawfulBut.mono fun p ⟨⟨⟨⟨_, h0⟩, h1⟩, h2⟩, h3⟩ => by
        cases p <;> contradiction))
    · next hx =>
      refine State.ticks_refl fun k hk hl => Region.lawful_iff_lawfulBut.mp (hl.lawful fun p x _ hx' h0 => hx ?_)
      obtain rfl : g = k := by rw [hg] at hk; exact Option.some.inj hk
      exact List.any_eq_true.mpr ⟨p, mem_allPorts p, by simp [hx', Hold.expired, h0]⟩

theorem State.continues_expireRegion (s : State) (r : RegionIx) : s.Continues A (s.expireRegion r) r :=
  (State.ticks_expireRegion s r).mono fun _ _ => Region.Ticks.continues

/-- One tick in one region keeps its law: counts that come to 0 expire in the same event (R46, R52, R55). -/
theorem State.continues_tickRegion (s : State) (r : RegionIx) : s.Continues A (s.tickRegion r) r := by
  have chain := (((State.ticks_tickHold (E := fun _ => False) s r .p0).trans (State.ticks_tickHold _ r .p1)).trans
    (State.ticks_tickHold _ r .p2)).trans (State.ticks_tickHold _ r .p3)
  exact State.Changes.mono (fun _ _ => Region.Ticks.continues) (chain.trans (State.ticks_expireRegion _ r))

/-! ### The operations that queue a job -/

/-- A change of region `r` that leaves the engine's part of the state leaves the jobs, if the job of `r` is left. -/
theorem State.RegionEvent.sameJobs {s t : State} {r : RegionIx} (e : s.RegionEvent t r) (h1 : t.jobQueue = s.jobQueue)
    (h2 : t.current = s.current) (h3 : t.starts = s.starts) (h4 : t.jobAt r = s.jobAt r) : s.SameJobs t :=
  ⟨e.part, h1, h2, h3, e.reports, fun q => by
    by_cases h : q = r
    · rw [h, h4]
    · simp only [State.jobAt, e.slot q h]⟩

theorem State.Changes.sameJobs {R : Region → Region → Prop} {s t : State} {r : RegionIx} (c : s.Changes R t r)
    (h : ∀ g k, R g k → k.job = g.job ∧ k.extent = g.extent) : s.SameJobs t := by
  refine c.toRegionEvent.sameJobs c.jobQueue c.current c.starts ?_
  have := c.region
  unfold State.jobAt
  generalize s.slot r = x at this ⊢
  generalize t.slot r = y at this ⊢
  cases this with
  | some hr => simp [h _ _ hr]
  | none => rfl

theorem State.Continues.sameJobs {s t : State} {r : RegionIx} (c : s.Continues A t r) : s.SameJobs t :=
  State.Changes.sameJobs c fun _ _ h => ⟨h.job, h.extent⟩

/-- What an operation on region `r` leaves in the sweep engine: everything as it was, or one job more, of a region
that had none. -/
inductive State.JobEffect (s t : State) (r : RegionIx) : Prop
  | same (h : s.SameJobs t)
  | queued {u : State} {g h : Region} {k : JobKind} {q : Option Port} (hg : s.slot r = some g) (hu : s.SameJobs u)
      (hh : u.slot r = some h) (hj : h.job = none) (he : h.extent = g.extent) (ht : (u.queueJob r k q).SameJobs t)

/-- An operation on region `r`: its slot evolves, and the sweep engine has what `State.JobEffect` says. -/
structure State.RegionOp (A : Port → Prop) (s t : State) (r : RegionIx) : Prop extends State.RegionEvent s t r where
  region : Option.Rel (Region.Evolves A) (s.slot r) (t.slot r)
  jobs : (∀ g, s.slot r = some g → g.lawful) → s.JobEffect t r

theorem State.Continues.regionOp {s t : State} {r : RegionIx} (c : s.Continues A t r) : s.RegionOp A t r :=
  ⟨c.toRegionEvent, (State.Changes.mono (fun _ _ => Region.Continues.evolves) c).region, fun _ => .same (State.Continues.sameJobs c)⟩

theorem State.RegionOp.refl (s : State) (r : RegionIx) : s.RegionOp A s r := (State.Continues.refl s r).regionOp

theorem State.Continues.trans_op {s t u : State} {r : RegionIx} (c : s.Continues A t r) (o : t.RegionOp A u r) :
    s.RegionOp A u r := by
  refine ⟨c.toRegionEvent.trans o.toRegionEvent,
    optionRel_comp (R := Region.Continues A) (R' := Region.Evolves A) (fun _ _ _ => Region.Continues.trans_evolves) c.region o.region, fun hl => ?_⟩
  have hs := State.Continues.sameJobs c
  have hc := c.region
  rcases o.jobs (fun k hk => by
      rw [hk] at hc
      generalize s.slot r = x at hc hl
      cases hc with
      | some h => exact h.lawful (hl _ rfl)) with h | ⟨hg, hu, hh, hj, he, ht⟩
  · exact .same (hs.trans h)
  · rw [hg] at hc
    cases hx : s.slot r <;> rw [hx] at hc <;> cases hc
    case some h => exact .queued hx (hs.trans hu) hh hj (he.trans h.extent) ht

theorem State.RegionOp.trans_continues {s t u : State} {r : RegionIx} (o : s.RegionOp A t r) (c : t.Continues A u r) :
    s.RegionOp A u r := by
  refine ⟨o.toRegionEvent.trans c.toRegionEvent,
    optionRel_comp (R := Region.Evolves A) (R' := Region.Continues A) (fun _ _ _ => Region.Evolves.trans_continues) o.region c.region, fun hl => ?_⟩
  have hs := State.Continues.sameJobs c
  rcases o.jobs hl with h | ⟨hg, hu, hh, hj, he, ht⟩
  · exact .same (h.trans hs)
  · exact .queued hg hu hh hj he (ht.trans hs)

theorem State.slot_withJob (s : State) (r : RegionIx) (g : Region) (k : JobKind) (q : Option Port) :
    (s.withJob r g k q).slot r = some { g with job := some ⟨k, false, q⟩ } := by
  unfold State.withJob
  split <;> exact State.slot_setSlot_self _ _ _

theorem State.slot_queueJob_self {s : State} {r : RegionIx} {g : Region} (k : JobKind) (q : Option Port)
    (h : s.slot r = some g) : (s.queueJob r k q).slot r = some { g with job := some ⟨k, false, q⟩ } := by
  rw [State.queueJob_of_slot k q h, State.slot_withJob]

/-- The slot replaced with no change of the job: an operation on the region. -/
theorem State.regionOp_setSlot {s : State} {r : RegionIx} {g h : Region} (hg : s.slot r = some g) (he : g.Evolves A h)
    (hj : g.lawful → h.job = g.job) : s.RegionOp A (s.setSlot r (some h)) r :=
  ⟨State.regionEvent_setSlot s r _, by rw [hg, State.slot_setSlot_self]; exact .some he, fun hl =>
    .same ((State.regionEvent_setSlot s r _).sameJobs rfl rfl rfl (by
      rw [State.jobAt_of_slot (State.slot_setSlot_self s r (some h)), State.jobAt_of_slot hg, hj (hl g hg), he.extent]))⟩

/-- The slot replaced and a job queued for its region: an operation on the region, if there was no job. -/
theorem State.regionOp_queueJob {s : State} {r : RegionIx} {g h : Region} {k : JobKind} {q : Option Port}
    (hg : s.slot r = some g) (hj : g.lawful → g.job = none) (hh : h.job = g.job)
    (he : g.Evolves A { h with job := some ⟨k, false, q⟩ }) :
    s.RegionOp A ((s.setSlot r (some h)).queueJob r k q) r := by
  have hslot : (s.setSlot r (some h)).slot r = some h := State.slot_setSlot_self s r _
  have hx : h.extent = g.extent := he.extent
  refine ⟨(State.regionEvent_setSlot s r _).trans (State.regionEvent_queueJob _ r k q), ?_, fun hl => ?_⟩
  · rw [hg, State.slot_queueJob_self k q hslot]; exact .some he
  · refine .queued hg ((State.regionEvent_setSlot s r _).sameJobs rfl rfl rfl ?_) hslot (hh.trans (hj (hl g hg))) hx
      (State.SameJobs.refl _)
    rw [State.jobAt_of_slot hslot, State.jobAt_of_slot hg, hh, hx]

/-- The end of a drain, continued by its reason (R67 to R70). -/
theorem State.regionOp_endDrain {s : State} {r : RegionIx} {g : Region} {d : Drain} (hg : s.slot r = some g)
    (hs : g.state = .draining d) (ho : g.drainOver d = true) : s.RegionOp A (s.endDrain r g d) r := by
  have wipe : ∀ q, (g.lawful → g.job = none) → s.RegionOp A (s.startWipe r g q) r := fun q hj =>
    State.regionOp_queueJob hg hj rfl (Region.evolves_wiping hs (some q))
  obtain ⟨reason, a⟩ := d
  cases reason with
  | release e =>
    have hj : g.lawful → g.job = none := fun hl => hl.2.1.none_of_drain hs fun _ => nofun
    refine State.RegionOp.trans_continues ?_ (State.continues_grantPass _ r)
    unfold State.autoDigest
    split
    · exact State.regionOp_queueJob hg hj rfl (Region.evolves_settled hs _ fun i hi => (Option.some.inj hi) ▸ rfl)
    · refine State.regionOp_setSlot hg ⟨rfl, ?_, ?_, fun hl => ?_, ?_⟩ fun _ => rfl
      · exact (Region.evolves_settled (A := A) hs none nofun).generation
      · exact (Region.evolves_settled (A := A) hs none nofun).digest
      · exact (Region.evolves_settled (A := A) hs g.job fun i hi => by rw [hj hl] at hi; cases hi).lawful hl
      · exact (Region.evolves_settled (A := A) hs none nofun).involves
  | define =>
    exact (State.regionOp_setSlot hg (Region.evolves_opened hs) fun _ => rfl).trans_continues (State.continues_grantPass _ r)
  | relinquish q => exact wipe q fun hl => hl.2.1.none_of_drain hs fun _ => nofun
  | reclaim q =>
    refine wipe q fun _ => ?_
    simp only [Region.drainOver, Bool.and_eq_true] at ho
    simpa using ho.2

theorem State.regionOp_decideDrain (s : State) (r : RegionIx) : s.RegionOp A (s.decideDrain r) r := by
  rcases s.decideDrain_cases r with h | ⟨g, d, hg, hs, ho, h⟩ <;> rw [h]
  · exact State.RegionOp.refl s r
  · exact State.regionOp_endDrain hg hs ho

/-- The end of a hold or a wait at a port reset: neither, a SHARED hold, an EXCLUSIVE one that settles at once, or a
wait (R44, R165). -/
theorem State.cutRegion_cases (s : State) (p : Port) (r : RegionIx) :
    (s.cutRegion p r = s ∧ ∀ g, s.slot r = some g → ¬ g.involves p) ∨
    (∃ g x, s.slot r = some g ∧ g.holders.get p = some x ∧ x.mode = .shared ∧
      s.cutRegion p r = (s.setSlot r (some (g.endShared p))).grantPass r) ∨
    (∃ g x, s.slot r = some g ∧ g.holders.get p = some x ∧ x.mode = .exclusive ∧
      s.cutRegion p r = (s.setSlot r (some (g.endExclusive p ⟨x.wrote, true⟩ (.all false)))).decideDrain r) ∨
    ∃ g, s.slot r = some g ∧ ¬ g.holds p ∧ s.cutRegion p r = (s.setSlot r (some (g.withdraw p))).grantPass r := by
  unfold State.cutRegion
  split
  · next hg => exact .inl ⟨rfl, by simp [hg]⟩
  · next g hg =>
    split
    · next x hx =>
      split
      · next hm => exact .inr (.inl ⟨g, x, hg, hx, hm, rfl⟩)
      · next hm => exact .inr (.inr (.inl ⟨g, x, hg, hx, hm, rfl⟩))
    · next hx =>
      have hh : ¬ g.holds p := by simp [Region.holds, hx]
      split
      · exact .inr (.inr (.inr ⟨g, hg, hh, rfl⟩))
      · next hw =>
        refine .inl ⟨rfl, fun k hk hi => ?_⟩
        obtain rfl : g = k := by rw [hg] at hk; exact Option.some.inj hk
        exact hi.elim hh fun h => hw (Region.waitsFor_iff.mpr h)

theorem State.regionOp_cutRegion (s : State) (p : Port) (r : RegionIx) : s.RegionOp A (s.cutRegion p r) r := by
  rcases s.cutRegion_cases p r with ⟨h, -⟩ | ⟨g, x, hg, hx, hm, h⟩ | ⟨g, x, hg, hx, hm, h⟩ | ⟨g, hg, _, h⟩ <;> rw [h]
  · exact State.RegionOp.refl s r
  · exact ((State.Continues.setSlot hg (Region.continues_endShared hx hm)).trans (State.continues_grantPass _ r)).regionOp
  · exact (State.Continues.setSlot hg (Region.continues_endExclusive _ _ hx hm)).trans_op (State.regionOp_decideDrain _ r)
  · exact ((State.Continues.setSlot hg (Region.continues_withdraw g p)).trans (State.continues_grantPass _ r)).regionOp

/-! ### Whom the end of a port's part leaves involved -/

/-- What is not involved before an operation that involves nobody new is not involved after it. -/
theorem State.RegionOp.not_involves {s t : State} {r : RegionIx} {p : Port} (o : s.RegionOp (fun _ => False) t r)
    (h : ∀ g, s.slot r = some g → ¬ g.involves p) {k : Region} (hk : t.slot r = some k) : ¬ k.involves p := by
  have := o.region
  rw [hk] at this
  generalize s.slot r = x at this h
  cases this with
  | some e => exact fun hp => (e.involves p hp).elim (h _ rfl) id

theorem State.not_involves_setSlot {s : State} {r : RegionIx} {p : Port} {h : Region} (hp : ¬ h.involves p) :
    ∀ g, (s.setSlot r (some h)).slot r = some g → ¬ g.involves p := fun g hg => by
  rw [State.slot_setSlot_self] at hg; exact Option.some.inj hg ▸ hp

/-- A port that holds a lawful region does not wait for it, so without its hold it has no part in it. -/
theorem Region.lawful.not_involves_dropped {g k : Region} {p : Port} (hl : g.lawful) (hp : g.holds p)
    (hk : k.holders = (g.dropHold p).holders) (hq : k.queue = g.queue) : ¬ k.involves p := by
  rintro (h | h)
  · rw [Region.holds, hk] at h
    exact (Region.holds_dropHold.mp h).1 rfl
  · rw [Region.waits, hq] at h
    exact hl.2.2.1.2.1 p h hp

/-- After DETACH's work on a lawful region its port has no part in it (R163). -/
theorem State.leaveRegion_not_involves {s : State} {p : Port} {r : RegionIx} (hl : ∀ g, s.slot r = some g → g.lawful)
    {k : Region} (hk : (s.leaveRegion p r).slot r = some k) : ¬ k.involves p := by
  rcases s.leaveRegion_cases p r with ⟨h, hn⟩ | ⟨g, hg, hp, h⟩ | ⟨g, hg, hp, h⟩ <;> rw [h] at hk
  · exact hn k hk
  · refine (State.continues_grantPass _ r).regionOp.not_involves (fun g' hg' => ?_) hk
    obtain ⟨x, hx⟩ := Region.holds_iff.mp hp
    rcases State.endHold_of_hold false hg hx with ⟨-, h⟩ | ⟨-, h⟩ <;> rw [h] at hg'
    · exact State.not_involves_setSlot (h := g.endShared p) ((hl _ hg).not_involves_dropped hp rfl rfl) g' hg'
    · exact State.not_involves_setSlot (h := g.endExclusive p ⟨x.wrote, false⟩ (onlyPort p))
        ((hl _ hg).not_involves_dropped hp rfl rfl) g' hg'
  · refine (State.continues_grantPass _ r).regionOp.not_involves (State.not_involves_setSlot ?_) hk
    exact fun hi => hi.elim hp (Region.not_waits_withdraw g p)

/-- After a port reset's work on a lawful region its port has no part in it (R165). -/
theorem State.cutRegion_not_involves {s : State} {p : Port} {r : RegionIx} (hl : ∀ g, s.slot r = some g → g.lawful)
    {k : Region} (hk : (s.cutRegion p r).slot r = some k) : ¬ k.involves p := by
  rcases s.cutRegion_cases p r with ⟨h, hn⟩ | ⟨g, x, hg, hx, hm, h⟩ | ⟨g, x, hg, hx, hm, h⟩ | ⟨g, hg, hp, h⟩ <;> rw [h] at hk
  · exact hn k hk
  · refine (State.continues_grantPass _ r).regionOp.not_involves (State.not_involves_setSlot ?_) hk
    exact (hl _ hg).not_involves_dropped (Region.holds_iff.mpr ⟨x, hx⟩) rfl rfl
  · refine (State.regionOp_decideDrain _ r).not_involves (State.not_involves_setSlot ?_) hk
    exact (hl _ hg).not_involves_dropped (Region.holds_iff.mpr ⟨x, hx⟩) rfl rfl
  · refine (State.continues_grantPass _ r).regionOp.not_involves (State.not_involves_setSlot ?_) hk
    exact fun hi => hi.elim hp (Region.not_waits_withdraw g p)

end Sys2Proof.Machine
end

section
/-! SUPPORT. The agreement of job fields and sweep engine (R10, R93 to R95): what keeps it, operation by operation. -/

namespace Sys2Proof.Machine

/-! ### The law, region by region -/

/-- What the engine has for region `r` if this is the job of its slot. -/
def State.jobLawAt (s : State) (r : RegionIx) : Option (JobMark × Extent) → Prop
  | none => s.noJobFor r
  | some (⟨k, false, q⟩, e) =>
    ((s.jobQueue.filter fun j => j.region = r) = [⟨k, r, q⟩] ∧ s.notBegun r) ∨
      ((∀ j ∈ s.jobQueue, j.region ≠ r) ∧ s.begun r e k q ∧ s.starts.count r = 1)
  | some (⟨k, true, q⟩, e) => (∀ j ∈ s.jobQueue, j.region ≠ r) ∧ s.begun r e k q ∧ r ∉ s.starts

theorem State.jobsLaw_iff (s : State) : s.jobsLaw ↔ s.engineLaw ∧ ∀ r, s.jobLawAt r (s.jobAt r) := by
  have : ∀ r, (match s.slot r with
      | none => s.noJobFor r
      | some g => match g.job with
        | none => s.noJobFor r
        | some ⟨k, false, q⟩ =>
          ((s.jobQueue.filter fun j => j.region = r) = [⟨k, r, q⟩] ∧ s.notBegun r) ∨
            ((∀ j ∈ s.jobQueue, j.region ≠ r) ∧ s.begun r g.extent k q ∧ s.starts.count r = 1)
        | some ⟨k, true, q⟩ => (∀ j ∈ s.jobQueue, j.region ≠ r) ∧ s.begun r g.extent k q ∧ r ∉ s.starts) ↔
      s.jobLawAt r (s.jobAt r) := by
    intro r
    unfold State.jobAt
    cases s.slot r with
    | none => exact Iff.rfl
    | some g =>
      cases hj : g.job with
      | none => simp [State.jobLawAt, hj]
      | some j =>
        obtain ⟨k, run, q⟩ := j
        cases run <;> simp [State.jobLawAt, hj]
  exact and_congr Iff.rfl (forall_congr' this)

/-- The engine's own part of the state is all that the law reads beside the job fields. -/
theorem State.jobLawAt_congr {s t : State} (h1 : t.jobQueue = s.jobQueue) (h2 : t.current = s.current)
    (h3 : t.starts = s.starts) (h4 : t.reports = s.reports) (r : RegionIx) (x : Option (JobMark × Extent)) :
    t.jobLawAt r x ↔ s.jobLawAt r x := by
  unfold State.jobLawAt State.noJobFor State.notBegun State.begun
  rw [h1, h2, h3, h4]

theorem State.SameJobs.jobsLaw {s t : State} (h : s.SameJobs t) (hs : s.jobsLaw) : t.jobsLaw := by
  rw [State.jobsLaw_iff] at hs ⊢
  refine ⟨?_, fun r => ?_⟩
  · unfold State.engineLaw
    rw [h.part, h.jobQueue, h.current]
    exact hs.1
  · rw [h.jobAt r]
    exact (State.jobLawAt_congr h.jobQueue h.current h.starts h.reports r _).mpr (hs.2 r)

/-! ### What the law says of what the engine has -/

section
variable {s : State} {r : RegionIx}

/-- The engine's queue names a region whose job field reads queued, and only once. -/
theorem State.jobLawAt_of_mem_queue {j : Job} (h : s.jobLawAt j.region (s.jobAt j.region)) (hj : j ∈ s.jobQueue) :
    ∃ e, s.jobAt j.region = some (⟨j.kind, false, j.requester⟩, e) ∧
      (s.jobQueue.filter fun i => i.region = j.region) = [j] ∧ s.notBegun j.region := by
  generalize s.jobAt j.region = x at h
  match x with
  | none => exact absurd rfl (h.1 j hj)
  | some (⟨k, true, q⟩, e) => exact absurd rfl (h.1 j hj)
  | some (⟨k, false, q⟩, e) =>
    rcases h with ⟨hf, hn⟩ | ⟨hq, _⟩
    · have : j ∈ s.jobQueue.filter fun i => i.region = j.region := List.mem_filter.mpr ⟨hj, by simp⟩
      rw [hf, List.mem_singleton] at this
      refine ⟨e, ?_, by rw [hf, ← this], hn⟩
      rw [this]
    · exact absurd rfl (hq j hj)

/-- The job in progress is its region's, with its region's extent, and no report of it stands yet. -/
theorem State.jobLawAt_of_current {x : Progress} (h : s.jobLawAt x.job.region (s.jobAt x.job.region))
    (hc : s.current = some x) :
    ∃ run, s.jobAt x.job.region = some (⟨x.job.kind, run, x.job.requester⟩, x.extent) ∧ x.done < x.extent.words ∧
      (∀ y ∈ s.reports, y.region ≠ x.job.region) ∧ (∀ j ∈ s.jobQueue, j.region ≠ x.job.region) ∧
      (run = false → s.starts.count x.job.region = 1) ∧ (run = true → x.job.region ∉ s.starts) := by
  have begun : ∀ {e k q}, s.begun x.job.region e k q →
      x.job = ⟨k, x.job.region, q⟩ ∧ x.extent = e ∧ x.done < e.words ∧ ∀ y ∈ s.reports, y.region ≠ x.job.region := by
    rintro e k q (⟨y, hy, h⟩ | ⟨h, _⟩)
    · rw [hc] at hy; cases hy; exact h
    · exact absurd rfl (h x hc)
  generalize s.jobAt x.job.region = z at h
  match z with
  | none => exact absurd rfl (h.2.1 x hc)
  | some (⟨k, false, q⟩, e) =>
    rcases h with ⟨_, hn⟩ | ⟨hq, hb, hs⟩
    · exact absurd rfl (hn.1 x hc)
    · obtain ⟨h1, rfl, h3, h4⟩ := begun hb
      exact ⟨false, by rw [h1], h3, h4, hq, fun _ => hs, nofun⟩
  | some (⟨k, true, q⟩, e) =>
    obtain ⟨hq, hb, hs⟩ := h
    obtain ⟨h1, rfl, h3, h4⟩ := begun hb
    exact ⟨true, by rw [h1], h3, h4, hq, nofun, fun _ => hs⟩

/-- A start reported is of a region whose job field reads queued, and stands reported once. -/
theorem State.jobLawAt_of_mem_starts (h : s.jobLawAt r (s.jobAt r)) (hr : r ∈ s.starts) :
    ∃ k q e, s.jobAt r = some (⟨k, false, q⟩, e) ∧ (∀ j ∈ s.jobQueue, j.region ≠ r) ∧ s.begun r e k q ∧
      s.starts.count r = 1 := by
  generalize s.jobAt r = x at h
  match x with
  | none => exact absurd hr h.2.2.1
  | some (⟨k, true, q⟩, e) => exact absurd hr h.2.2
  | some (⟨k, false, q⟩, e) =>
    rcases h with ⟨_, hn⟩ | ⟨hq, hb, hs⟩
    · exact absurd hr hn.2.1
    · exact ⟨k, q, e, rfl, hq, hb, hs⟩

/-- A completion reported after its start was taken is of a running job of its kind, and stands reported once. -/
theorem State.jobLawAt_of_mem_reports {y : Report} (h : s.jobLawAt y.region (s.jobAt y.region)) (hy : y ∈ s.reports)
    (hs : y.region ∉ s.starts) :
    ∃ q e, s.jobAt y.region = some (⟨y.kind, true, q⟩, e) ∧ (∀ j ∈ s.jobQueue, j.region ≠ y.region) ∧
      (∀ x, s.current = some x → x.job.region ≠ y.region) ∧ (s.reports.filter fun z => z.region = y.region) = [y] := by
  generalize s.jobAt y.region = x at h
  match x with
  | none => exact absurd rfl (h.2.2.2 y hy)
  | some (⟨k, false, q⟩, e) =>
    rcases h with ⟨_, hn⟩ | ⟨_, _, hc⟩
    · exact absurd rfl (hn.2.2 y hy)
    · rw [List.count_eq_zero_of_not_mem hs] at hc; cases hc
  | some (⟨k, true, q⟩, e) =>
    obtain ⟨hq, hb, _⟩ := h
    rcases hb with ⟨x, _, _, _, _, hn⟩ | ⟨hc, hk⟩
    · exact absurd rfl (hn y hy)
    · obtain ⟨z, hz, rfl⟩ := List.map_eq_singleton_iff.mp hk
      have : y ∈ s.reports.filter fun z => z.region = y.region := List.mem_filter.mpr ⟨hy, by simp⟩
      rw [hz, List.mem_singleton] at this
      subst this
      exact ⟨q, e, rfl, hq, hc, hz⟩

end

/-! ### A job queued -/

theorem State.jobAt_setSlot (s : State) (r q : RegionIx) (g : Region) :
    (s.setSlot r (some g)).jobAt q = if q = r then g.job.map fun j => (j, g.extent) else s.jobAt q := by
  unfold State.jobAt
  rw [State.slot_setSlot]
  split <;> rfl

theorem State.jobAt_withJob (s : State) (r q : RegionIx) (g : Region) (k : JobKind) (w : Option Port) :
    (s.withJob r g k w).jobAt q = if q = r then some (⟨k, false, w⟩, g.extent) else s.jobAt q := by
  have := s.jobAt_setSlot r q { g with job := some ⟨k, false, w⟩ }
  unfold State.withJob
  split <;> exact this

/-- The law of one region is left when the engine changes for others only: its queue, its progress, the starts and the
reports as this region sees them. -/
theorem State.jobLawAt_of_others {s t : State} {r : RegionIx} {x : Option (JobMark × Extent)}
    (hq : (t.jobQueue.filter fun j => j.region = r) = s.jobQueue.filter fun j => j.region = r)
    (hc : (∃ y, s.current = some y ∧ y.job.region = r) → t.current = s.current)
    (hc' : ∀ y, t.current = some y → y.job.region = r → t.current = s.current)
    (hs : t.starts.count r = s.starts.count r)
    (hp : (t.reports.filter fun y => y.region = r) = s.reports.filter fun y => y.region = r)
    (h : s.jobLawAt r x) : t.jobLawAt r x := by
  have queue : (∀ j ∈ s.jobQueue, j.region ≠ r) → ∀ j ∈ t.jobQueue, j.region ≠ r := fun h j hj hr => by
    have : j ∈ s.jobQueue.filter fun i => i.region = r := hq ▸ List.mem_filter.mpr ⟨hj, by simpa using hr⟩
    exact h j (List.mem_filter.mp this).1 hr
  have reports : (∀ y ∈ s.reports, y.region ≠ r) → ∀ y ∈ t.reports, y.region ≠ r := fun h y hy hr => by
    have : y ∈ s.reports.filter fun i => i.region = r := hp ▸ List.mem_filter.mpr ⟨hy, by simpa using hr⟩
    exact h y (List.mem_filter.mp this).1 hr
  have starts : r ∉ s.starts → r ∉ t.starts := fun h => by
    rw [← List.count_eq_zero] at h ⊢; rw [hs, h]
  have current : (∀ y, s.current = some y → y.job.region ≠ r) → ∀ y, t.current = some y → y.job.region ≠ r :=
    fun h y hy hr => h y (hc' y hy hr ▸ hy) hr
  have notBegun : s.notBegun r → t.notBegun r := fun ⟨h1, h2, h3⟩ => ⟨current h1, starts h2, reports h3⟩
  have begun : ∀ {e k q}, s.begun r e k q → t.begun r e k q := by
    rintro e k q (⟨y, hy, hj, he, hd, hn⟩ | ⟨h1, h2⟩)
    · exact .inl ⟨y, (hc ⟨y, hy, by rw [hj]⟩).trans hy, hj, he, hd, reports hn⟩
    · exact .inr ⟨current h1, by rw [hp]; exact h2⟩
  match x, h with
  | none, ⟨h1, h2⟩ => exact ⟨queue h1, notBegun h2⟩
  | some (⟨k, true, q⟩, e), ⟨h1, h2, h3⟩ => exact ⟨queue h1, begun h2, starts h3⟩
  | some (⟨k, false, q⟩, e), .inl ⟨h1, h2⟩ => exact .inl ⟨hq.trans h1, notBegun h2⟩
  | some (⟨k, false, q⟩, e), .inr ⟨h1, h2, h3⟩ => exact .inr ⟨queue h1, begun h2, hs.trans h3⟩

theorem filter_append_of_ne {α : Type} (l : List α) {p : α → Bool} {a : α} (h : p a = false) :
    (l ++ [a]).filter p = l.filter p := by simp [List.filter_append, h]

theorem count_append_of_ne {l : List RegionIx} {a r : RegionIx} (h : r ≠ a) : (l ++ [a]).count r = l.count r := by
  rw [List.count_append, List.count_singleton]
  simp [Ne.symm h]

theorem filter_eq_nil_of_region_ne {l : List Job} {r : RegionIx} (h : ∀ j ∈ l, j.region ≠ r) :
    (l.filter fun j => j.region = r) = [] :=
  List.filter_eq_nil_iff.mpr fun j hj => by simpa using h j hj

/-- A job queued for a region that has none keeps the law (R93 to R95, R101). -/
theorem State.jobsLaw_queueJob {s : State} {r : RegionIx} {g : Region} (k : JobKind) (q : Option Port) (h : s.jobsLaw)
    (hg : s.slot r = some g) (hj : g.job = none) (he : 1 ≤ g.extent.count) : (s.queueJob r k q).jobsLaw := by
  rw [State.queueJob_of_slot k q hg]
  rw [State.jobsLaw_iff] at h ⊢
  obtain ⟨hE, hR⟩ := h
  have hr : s.noJobFor r := by
    have := hR r
    rwa [State.jobAt_of_slot hg, hj] at this
  obtain ⟨hr1, hr2, hr3, hr4⟩ := hr
  have hwords : 0 < g.extent.words := by simp only [Extent.words, Config.wordsPerPage]; omega
  refine ⟨?_, fun x => ?_⟩
  · unfold State.withJob
    split
    · exact nofun
    · next hf => exact fun hp hc => absurd ⟨hp, hc, hE hp hc⟩ hf
  · rw [State.jobAt_withJob]
    by_cases hx : x = r
    · subst hx
      rw [if_pos rfl]
      unfold State.withJob
      split
      · refine .inr ⟨hr1, .inl ⟨_, rfl, rfl, rfl, hwords, hr4⟩, ?_⟩
        simp [List.count_append, List.count_eq_zero_of_not_mem hr3]
      · refine .inl ⟨?_, hr2, hr3, hr4⟩
        simp [List.filter_append, filter_eq_nil_of_region_ne hr1]
    · rw [if_neg hx]
      unfold State.withJob
      split
      · next hf =>
        refine State.jobLawAt_of_others (s := s) rfl ?_ ?_ (count_append_of_ne hx) rfl (hR x)
        · rintro ⟨y, hy, -⟩
          rw [hf.2.1] at hy; cases hy
        · rintro y hy rfl
          cases hy; exact absurd rfl hx
      · exact State.jobLawAt_of_others (s := s) (filter_append_of_ne _ (by simpa using Ne.symm hx)) (fun _ => rfl) (fun _ _ _ => rfl) rfl
          rfl (hR x)

theorem State.JobEffect.jobsLaw {s t : State} {r : RegionIx} (e : s.JobEffect t r)
    (hx : ∀ g, s.slot r = some g → 1 ≤ g.extent.count) (h : s.jobsLaw) : t.jobsLaw := by
  cases e with
  | same e => exact e.jobsLaw h
  | queued hg hu hh hj he ht =>
    exact ht.jobsLaw (State.jobsLaw_queueJob _ _ (hu.jobsLaw h) hh hj (he ▸ hx _ hg))

/-! ### The starts and the words of a job -/

theorem State.jobAt_updRegion_job (s : State) (r q : RegionIx) (f : Option JobMark → Option JobMark) :
    (s.updRegion r fun g => { g with job := f g.job }).jobAt q =
      if q = r then (s.slot r).bind fun g => (f g.job).map fun j => (j, g.extent) else s.jobAt q := by
  unfold State.jobAt
  rw [State.slot_updRegion]
  split
  · next h => cases s.slot r <;> simp
  · rfl

/-- The lock engine's taking of a start keeps the law: the field reads running from then on (R10, R95). -/
theorem State.jobsLaw_takeStart {s : State} (h : s.jobsLaw) : s.takeStart.jobsLaw := by
  rcases s.takeStart_cases with ⟨-, h'⟩ | ⟨r, rest, hs, h'⟩
  · rwa [h']
  · rw [State.jobsLaw_iff] at h ⊢
    obtain ⟨hE, hR⟩ := h
    refine ⟨by simpa [State.engineLaw] using hE, fun x => ?_⟩
    obtain ⟨k, q, e, hj, hq, hb, hc⟩ := State.jobLawAt_of_mem_starts (hR r) (by rw [hs]; exact List.mem_cons_self)
    have hat : s.takeStart.jobAt x = if x = r then some (⟨k, true, q⟩, e) else s.jobAt x := by
      rw [h']
      refine (s.jobAt_updRegion_job r x (Option.map JobMark.started)).trans ?_
      split
      · unfold State.jobAt at hj
        obtain ⟨g, hg, hgj⟩ := Option.bind_eq_some_iff.mp hj
        obtain ⟨j, hjj, hje⟩ := Option.map_eq_some_iff.mp hgj
        cases hje
        simp [hg, hjj, JobMark.started]
      · rfl
    rw [hat]
    have hst : s.takeStart.starts = rest := by rw [h']
    by_cases hx : x = r
    · subst hx
      rw [if_pos rfl]
      refine ⟨by simpa using hq, ?_, ?_⟩
      · simpa [State.begun] using hb
      · rw [hst]
        rw [hs, List.count_cons_self] at hc
        exact List.count_eq_zero.mp (by omega)
    · rw [if_neg hx]
      refine State.jobLawAt_of_others (by simp) (by simp) (by simp) ?_ (by simp) (hR x)
      rw [hst, hs, List.count_cons_of_ne (fun e => hx e.symm)]

/-- The extents that the region table's regions have are not empty (R4). -/
def State.extentsFilled (s : State) : Prop := ∀ r g, s.slot r = some g → 1 ≤ g.extent.count

theorem State.extentsLaw.filled {s : State} (h : s.extentsLaw) : s.extentsFilled := fun r g hg => (h.1 r g hg).1

/-- An engine that starts the head of its queue, where every job field agrees with it, keeps the law (R94, R95). -/
theorem State.jobsLaw_startHead {s : State} (h : ∀ r, s.jobLawAt r (s.jobAt r)) (hx : s.extentsFilled) :
    s.startHead.jobsLaw := by
  have stay : (s.part = .ready → s.current = none → s.jobQueue = []) → s.jobsLaw := fun hE =>
    s.jobsLaw_iff.mpr ⟨hE, h⟩
  unfold State.startHead
  split
  · next hq => exact stay fun _ _ => hq
  · next j rest hq =>
    split
    · next hi =>
      obtain ⟨-, hcur⟩ := s.engineIdle_iff.mp hi
      obtain ⟨e, hj, hf, hn⟩ := State.jobLawAt_of_mem_queue (h j.region) (by rw [hq]; exact List.mem_cons_self)
      obtain ⟨g, hg, hgj⟩ := Option.bind_eq_some_iff.mp hj
      obtain ⟨m, hm, hme⟩ := Option.map_eq_some_iff.mp hgj
      cases hme
      rw [hq, List.filter_cons_of_pos (by simp), List.cons.injEq] at hf
      rw [State.startJob_of_slot rest hg, State.jobsLaw_iff]
      refine ⟨nofun, fun x => ?_⟩
      by_cases hxj : x = j.region
      · subst hxj
        have hat : s.jobAt j.region = some (⟨j.kind, false, j.requester⟩, g.extent) := hj
        have hwords : 0 < g.extent.words := by
          have := hx _ _ hg
          simp only [Extent.words, Config.wordsPerPage]; omega
        show State.jobLawAt _ _ (s.jobAt j.region)
        rw [hat]
        refine .inr ⟨fun i hi hr => ?_, .inl ⟨_, rfl, rfl, rfl, hwords, hn.2.2⟩, ?_⟩
        · have : i ∈ rest.filter fun i => i.region = j.region := List.mem_filter.mpr ⟨hi, by simpa using hr⟩
          rw [hf.2] at this; cases this
        · simp [List.count_append, List.count_eq_zero_of_not_mem hn.2.1]
      · refine State.jobLawAt_of_others (s := s) ?_ ?_ ?_ (count_append_of_ne hxj) rfl (h x)
        · rw [hq, List.filter_cons_of_neg (by simpa using Ne.symm hxj)]
        · rintro ⟨y, hy, -⟩
          rw [hcur] at hy; cases hy
        · rintro y hy rfl
          cases hy; exact absurd rfl hxj
    · next hi => exact stay fun hp hc => absurd (s.engineIdle_iff.mpr ⟨hp, hc⟩) hi

theorem State.jobsLaw_startNext {s : State} (h : ∀ r, s.jobLawAt r (s.jobAt r)) (hx : s.extentsFilled) :
    s.startNext.jobsLaw := by
  unfold State.startNext
  split
  · exact State.jobsLaw_takeStart (State.jobsLaw_startHead h hx)
  · exact State.jobsLaw_startHead h hx

theorem Progress.report_region (x : Progress) : x.report.region = x.job.region := by
  unfold Progress.report; split <;> rfl

theorem Progress.report_kind (x : Progress) : x.report.kind = x.job.kind := by
  unfold Progress.report; split <;> next h => exact h.symm

/-- The job in progress one word further keeps the law: with its last word its completion is reported and the next
head starts (R94, R95). -/
theorem State.jobsLaw_advanceJob {s : State} {x y : Progress} (h : s.jobsLaw) (hx : s.extentsFilled)
    (hc : s.current = some x) (h1 : y.job = x.job) (h2 : y.extent = x.extent) : (s.advanceJob y).jobsLaw := by
  obtain ⟨hE, hR⟩ := s.jobsLaw_iff.mp h
  obtain ⟨run, hj, -, hn, hq, hf, ht⟩ := State.jobLawAt_of_current (hR x.job.region) hc
  have own : ∀ {t : State}, t.jobQueue = s.jobQueue → t.starts = s.starts →
      t.begun x.job.region x.extent x.job.kind x.job.requester →
      t.jobLawAt x.job.region (s.jobAt x.job.region) := by
    intro t h1 h2 hb
    rw [hj]
    cases run with
    | false => exact .inr ⟨h1 ▸ hq, hb, h2 ▸ hf rfl⟩
    | true => exact ⟨h1 ▸ hq, hb, h2 ▸ ht rfl⟩
  unfold State.advanceJob
  split
  · next hd =>
    rw [State.jobsLaw_iff]
    refine ⟨nofun, fun r => ?_⟩
    by_cases hr : r = x.job.region
    · subst hr
      exact own rfl rfl (.inl ⟨_, rfl, h1, h2, h2 ▸ hd, hn⟩)
    · refine State.jobLawAt_of_others (s := s) rfl ?_ ?_ rfl rfl (hR r)
      · rintro ⟨z, hz, rfl⟩
        rw [hc] at hz; cases hz; exact absurd rfl hr
      · rintro z hz rfl
        cases hz; exact absurd (congrArg Job.region h1) hr
  · refine State.jobsLaw_startNext (fun r => ?_) hx
    by_cases hr : r = x.job.region
    · subst hr
      refine own rfl rfl (.inr ⟨nofun, ?_⟩)
      have : (s.reports.filter fun z => decide (z.region = x.job.region)) = [] :=
        List.filter_eq_nil_iff.mpr fun z hz => by simpa using hn z hz
      simp [List.filter_append, this, Progress.report_region, Progress.report_kind, h1]
    · refine State.jobLawAt_of_others (s := s) rfl ?_ nofun rfl (filter_append_of_ne _ ?_) (hR r)
      · rintro ⟨z, hz, rfl⟩
        rw [hc] at hz; cases hz; exact absurd rfl hr
      · rw [Progress.report_region, h1]
        simpa using Ne.symm hr

/-- The completion taken of a job leaves its region with none (R97, R100). -/
theorem State.jobsLaw_complete {s : State} {y : Report} {rest : List Report} {k : Region} (h : s.jobsLaw)
    (hy : s.reports = y :: rest) (hs : y.region ∉ s.starts) (hk : k.job = none) :
    ({ s with reports := rest }.setSlot y.region (some k)).jobsLaw := by
  obtain ⟨hE, hR⟩ := s.jobsLaw_iff.mp h
  obtain ⟨q, e, -, hq, hc, hf⟩ := State.jobLawAt_of_mem_reports (hR y.region) (by rw [hy]; exact List.mem_cons_self) hs
  rw [State.jobsLaw_iff]
  refine ⟨hE, fun r => ?_⟩
  rw [State.jobAt_setSlot]
  by_cases hr : r = y.region
  · subst hr
    rw [if_pos rfl, hk]
    refine ⟨hq, hc, hs, fun z hz hzr => ?_⟩
    rw [hy, List.filter_cons_of_pos (by simp), List.cons.injEq] at hf
    have : z ∈ rest.filter fun z => z.region = y.region := List.mem_filter.mpr ⟨hz, by simpa using hzr⟩
    rw [hf.2] at this; cases this
  · rw [if_neg hr]
    refine State.jobLawAt_of_others (s := s) rfl (fun _ => rfl) (fun _ _ _ => rfl) rfl ?_ (hR r)
    rw [hy, List.filter_cons_of_neg (by simpa using Ne.symm hr)]
    rfl

/-- A completion that may be taken is of the job its region's field shows (R95). -/
theorem State.jobsLaw.job_of_report {s : State} {y : Report} {rest : List Report} (h : s.jobsLaw)
    (hy : s.reports = y :: rest) (hs : y.region ∉ s.starts) :
    ∃ g q, s.slot y.region = some g ∧ g.job = some ⟨y.kind, true, q⟩ := by
  obtain ⟨hE, hR⟩ := s.jobsLaw_iff.mp h
  obtain ⟨q, e, hj, -⟩ := State.jobLawAt_of_mem_reports (hR y.region) (by rw [hy]; exact List.mem_cons_self) hs
  obtain ⟨g, hg, hgj⟩ := Option.bind_eq_some_iff.mp hj
  obtain ⟨m, hm, hme⟩ := Option.map_eq_some_iff.mp hgj
  cases hme
  exact ⟨g, q, hg, hm⟩

/-- With no region defined and nothing in the engine the law holds. -/
theorem State.jobsLaw_of_empty {s : State} (h : ∀ r, s.slot r = none) (h1 : s.jobQueue = []) (h2 : s.current = none)
    (h3 : s.starts = []) (h4 : s.reports = []) : s.jobsLaw := by
  rw [State.jobsLaw_iff]
  refine ⟨fun _ _ => h1, fun r => ?_⟩
  rw [State.jobAt_of_none (h r)]
  exact ⟨by simp [h1], by simp [h2], by simp [h3], by simp [h4]⟩

end Sys2Proof.Machine
end

section
/-! SUPPORT. What one command can do to the region table, the part and the sweep engine, said once for every command:
the laws kept by every step are read off from it. -/

namespace Sys2Proof.Machine

/-! ### Changes beside the region table -/

/-- `t` is `s` but for the port interfaces, the arbiter and what is in flight between the blocks. -/
structure State.SameCore (s t : State) : Prop where
  rstLow : t.rstLow = s.rstLow
  supervisor : t.supervisor = s.supervisor
  divider : t.divider = s.divider
  part : t.part = s.part
  jobQueue : t.jobQueue = s.jobQueue
  current : t.current = s.current
  starts : t.starts = s.starts
  reports : t.reports = s.reports
  store : t.store = s.store
  slot : ∀ r, t.slot r = s.slot r

/-- `t` is `s` but for the port interfaces, their port states apart, the arbiter and what is in flight. -/
structure State.Beside (s t : State) : Prop extends State.SameCore s t where
  portState : ∀ p, (t.port p).state = (s.port p).state

theorem State.SameCore.refl (s : State) : s.SameCore s := ⟨rfl, rfl, rfl, rfl, rfl, rfl, rfl, rfl, rfl, fun _ => rfl⟩

theorem State.SameCore.trans {s t u : State} (h : s.SameCore t) (k : t.SameCore u) : s.SameCore u :=
  ⟨k.rstLow.trans h.rstLow, k.supervisor.trans h.supervisor, k.divider.trans h.divider, k.part.trans h.part,
    k.jobQueue.trans h.jobQueue, k.current.trans h.current, k.starts.trans h.starts, k.reports.trans h.reports,
    k.store.trans h.store, fun r => (k.slot r).trans (h.slot r)⟩

theorem State.Beside.refl (s : State) : s.Beside s := ⟨State.SameCore.refl s, fun _ => rfl⟩

theorem State.Beside.trans {s t u : State} (h : s.Beside t) (k : t.Beside u) : s.Beside u :=
  ⟨h.toSameCore.trans k.toSameCore, fun p => (k.portState p).trans (h.portState p)⟩

theorem State.sameCore_updPort (s : State) (p : Port) (f : PortIface → PortIface) : s.SameCore (s.updPort p f) :=
  ⟨rfl, rfl, rfl, rfl, rfl, rfl, rfl, rfl, rfl, fun _ => rfl⟩

/-- A change of a port's interface that leaves its port state. -/
theorem State.beside_updPort (s : State) (p : Port) {f : PortIface → PortIface}
    (h : (f (s.port p)).state = (s.port p).state) : s.Beside (s.updPort p f) :=
  ⟨s.sameCore_updPort p f, fun q => by rw [State.port_updPort]; split <;> simp_all⟩

theorem State.SameCore.sameJobs {s t : State} (h : s.SameCore t) : s.SameJobs t :=
  ⟨h.part, h.jobQueue, h.current, h.starts, h.reports, fun r => by simp only [State.jobAt, h.slot r]⟩

theorem State.beside_complete (s : State) (p : Port) (b : BusResult) : s.Beside (s.complete p b) :=
  s.beside_updPort p rfl

/-! ### The table's law -/

/-- Every defined region is lawful. -/
def State.tableLawful (s : State) : Prop := ∀ r g, s.slot r = some g → g.lawful

theorem State.regionsLaw_iff (s : State) : s.regionsLaw ↔ s.tableLawful ∧
    ∀ r g p, s.slot r = some g → (s.port p).state = .detached → ¬ g.involves p := by
  simp only [State.regionsLaw, State.tableLawful, Region.involves, not_or]

/-- The ports that may come to hold or wait in a command: the ATTACHED ones. -/
abbrev State.attachedPort (s : State) (p : Port) : Prop := (s.port p).state = .attached

/-- What a command can do to the region table: every region it leaves evolved from the one before, and a port it
leaves DETACHED was so or has no part in any region; or it defines one region over free pages. -/
inductive State.TableStep (s t : State) : Prop
  | evolves (region : ∀ r h, t.slot r = some h → ∃ g, s.slot r = some g ∧ g.Evolves s.attachedPort h)
      (ports : ∀ p, (t.port p).state = .detached → (s.port p).state = .detached ∨
        (s.tableLawful → ∀ r h, t.slot r = some h → ¬ h.involves p))
  | defines {r : RegionIx} {e : Extent} {a : Attributes} (free : s.slot r = none) (good : e.bad = false)
      (apart : s.overlapped e = false) (defined : t.slot r = some (freshRegion e a))
      (others : ∀ q, q ≠ r → t.slot q = s.slot q) (ports : ∀ p, (t.port p).state = (s.port p).state)

theorem Extent.overlaps_of_page {a b : Extent} {n : Nat} (ha : a.hasPage n = true) (hb : b.hasPage n = true) :
    a.overlaps b = true := by
  simp only [Extent.hasPage, Extent.overlaps, Bool.and_eq_true, decide_eq_true_eq] at *
  omega

theorem Extent.page_of_overlaps {a b : Extent} (h : a.overlaps b = true) :
    ∃ n, a.hasPage n = true ∧ b.hasPage n = true := by
  simp only [Extent.overlaps, decide_eq_true_eq] at h
  refine ⟨max a.base b.base, ?_, ?_⟩ <;> simp only [Extent.hasPage, Bool.and_eq_true, decide_eq_true_eq] <;> omega

theorem State.overlapped_iff (s : State) (e : Extent) : s.overlapped e = true ↔
    ∃ q g page, s.slot q = some g ∧ g.extent.hasPage page = true ∧ e.hasPage page = true := by
  constructor
  · intro h
    obtain ⟨q, -, hq⟩ := List.any_eq_true.mp h
    cases hg : s.slot q with
    | none => simp [hg] at hq
    | some g =>
      rw [hg] at hq
      obtain ⟨n, h1, h2⟩ := Extent.page_of_overlaps hq
      exact ⟨q, g, n, hg, h1, h2⟩
  · rintro ⟨q, g, n, hg, h1, h2⟩
    exact List.any_eq_true.mpr ⟨q, mem_allRegions q, by simp [hg, Extent.overlaps_of_page h1 h2]⟩

theorem Extent.bad_iff (e : Extent) : e.bad = true ↔ e.count = 0 ∨ 512 < e.base + e.count := by
  rw [Extent.bad, Bool.or_eq_true, beq_iff_eq, decide_eq_true_iff]
  rfl

theorem Extent.inStore_of_not_bad {e : Extent} (h : e.bad = false) : e.inStore := by
  have := (not_congr e.bad_iff).mp (by simp [h])
  unfold Extent.inStore Config.storePages
  omega

section
variable {s t : State}

theorem State.TableStep.tableLawful (h : s.TableStep t) (hl : s.tableLawful) : t.tableLawful := by
  intro r k hk
  cases h with
  | evolves region _ =>
    obtain ⟨g, hg, e⟩ := region r k hk
    exact e.lawful (hl r g hg)
  | @defines new _ _ free _ _ defined others _ =>
    by_cases hr : r = new
    · subst hr
      rw [defined] at hk; cases hk
      exact freshRegion_lawful _ _
    · exact hl r k (others r hr ▸ hk)

theorem State.TableStep.regionsLaw (h : s.TableStep t) (hs : s.regionsLaw) : t.regionsLaw := by
  rw [State.regionsLaw_iff] at hs ⊢
  refine ⟨h.tableLawful hs.1, fun r k p hk hp => ?_⟩
  cases h with
  | evolves region ports =>
    rcases ports p hp with hd | hn
    · obtain ⟨g, hg, e⟩ := region r k hk
      intro hi
      rcases e.involves p hi with hi | ha
      · exact hs.2 r g p hg hd hi
      · rw [State.attachedPort, hd] at ha; cases ha
    · exact hn hs.1 r k hk
  | @defines new _ _ free _ _ defined others ports =>
    by_cases hr : r = new
    · subst hr
      rw [defined] at hk; cases hk
      exact freshRegion_involves _ _ p
    · exact hs.2 r k p (others r hr ▸ hk) (ports p ▸ hp)

theorem State.TableStep.extentsLaw (h : s.TableStep t) (hs : s.extentsLaw) : t.extentsLaw := by
  cases h with
  | evolves region _ =>
    refine ⟨fun r k hk => ?_, fun r q k1 k2 page h1 h2 hne => ?_⟩
    · obtain ⟨g, hg, e⟩ := region r k hk
      exact e.extent ▸ hs.1 r g hg
    · obtain ⟨g1, hg1, e1⟩ := region r k1 h1
      obtain ⟨g2, hg2, e2⟩ := region q k2 h2
      rw [e1.extent, e2.extent]
      exact hs.2 r q g1 g2 page hg1 hg2 hne
  | @defines r e a free good apart defined others _ =>
    have fresh : ∀ {q g page}, s.slot q = some g → ¬ (g.extent.hasPage page = true ∧ e.hasPage page = true) :=
      fun hg h => by
        have := (s.overlapped_iff e).mpr ⟨_, _, _, hg, h.1, h.2⟩
        rw [apart] at this; cases this
    have slots : ∀ q g, t.slot q = some g → (q = r ∧ g.extent = e) ∨ (q ≠ r ∧ s.slot q = some g) := by
      intro q g hg
      by_cases hq : q = r
      · subst hq
        rw [defined] at hg; cases hg
        exact .inl ⟨rfl, rfl⟩
      · exact .inr ⟨hq, others q hq ▸ hg⟩
    refine ⟨fun q g hg => ?_, fun q1 q2 g1 g2 page h1 h2 hne => ?_⟩
    · rcases slots q g hg with ⟨-, he⟩ | ⟨-, hg⟩
      · exact he ▸ Extent.inStore_of_not_bad good
      · exact hs.1 q g hg
    · rcases slots q1 g1 h1 with ⟨rfl, he1⟩ | ⟨hq1, h1⟩ <;> rcases slots q2 g2 h2 with ⟨rfl, he2⟩ | ⟨hq2, h2⟩
      · exact absurd rfl hne
      · rw [he1]; exact fun h => fresh h2 h.symm
      · rw [he2]; exact fresh h1
      · exact hs.2 q1 q2 g1 g2 page h1 h2 hne

theorem State.TableStep.digestLaw (h : s.TableStep t) (hs : s.digestLaw) : t.digestLaw := by
  intro r k d hk hd
  cases h with
  | evolves region _ =>
    obtain ⟨g, hg, e⟩ := region r k hk
    exact e.digest (fun d hd => hs r g d hg hd) d hd
  | @defines new _ _ free _ _ defined others _ =>
    by_cases hr : r = new
    · subst hr
      rw [defined] at hk; cases hk
      cases hd
    · exact hs r k d (others r hr ▸ hk) hd

/-- A region defined before and after (R7). -/
theorem State.TableStep.generation (h : s.TableStep t) (hs : s.tableLawful) {r : RegionIx} {g k : Region}
    (hg : s.slot r = some g) (hk : t.slot r = some k) :
    k.generation = g.generation ∨ k.generation = g.generation + 1#16 := by
  cases h with
  | evolves region _ =>
    obtain ⟨g', hg', e⟩ := region r k hk
    obtain rfl : g = g' := by rw [hg] at hg'; exact Option.some.inj hg'
    exact e.generation (hs r g hg)
  | @defines new _ _ free _ _ defined others _ =>
    by_cases hr : r = new
    · subst hr; rw [free] at hg; cases hg
    · rw [others r hr, hg] at hk; cases hk
      exact .inl rfl

/-- With the region table as it was and no port newly DETACHED. -/
theorem State.tableStep_of_slots (h : ∀ r, t.slot r = s.slot r)
    (hp : ∀ p, (t.port p).state = .detached → (s.port p).state = .detached) : s.TableStep t :=
  .evolves (fun r k hk => ⟨k, h r ▸ hk, Region.Evolves.refl k⟩) fun p hd => .inl (hp p hd)

end

/-! ### Operations on the table -/

/-- An operation of the lock engine on any number of regions, each of them evolving; with the laws of the jobs kept and
nothing done where no region is defined. -/
structure State.TableOp (A : Port → Prop) (s t : State) : Prop extends State.LockEvent s t where
  region : ∀ r, Option.Rel (Region.Evolves A) (s.slot r) (t.slot r)
  jobs : s.tableLawful → s.extentsFilled → s.jobsLaw → t.jobsLaw
  idle : (∀ r, s.slot r = none) → t.jobQueue = s.jobQueue ∧ t.current = s.current ∧ t.starts = s.starts

variable {A : Port → Prop}

theorem State.RegionOp.tableOp {s t : State} {r : RegionIx} (o : s.RegionOp A t r) : s.TableOp A t where
  toLockEvent := o.toLockEvent
  region q := by
    by_cases h : q = r
    · exact h ▸ o.region
    · rw [o.slot q h]; exact optionRel_refl Region.Evolves.refl _
  jobs hl hx h := (o.jobs (hl r)).jobsLaw (hx r) h
  idle hn := by
    have none : ∀ g, s.slot r = some g → g.lawful := fun g hg => by rw [hn r] at hg; cases hg
    cases o.jobs none with
    | same h => exact ⟨h.jobQueue, h.current, h.starts⟩
    | queued hg => rw [hn r] at hg; cases hg

section
variable {s t : State}

theorem State.TableOp.slot_none {r : RegionIx} (o : s.TableOp A t) (h : s.slot r = none) : t.slot r = none := by
  have := h ▸ o.region r
  generalize t.slot r = x at this
  cases this; rfl

theorem State.TableOp.of_slot {r : RegionIx} {k : Region} (o : s.TableOp A t) (h : t.slot r = some k) :
    ∃ g, s.slot r = some g ∧ g.Evolves A k := by
  have := h ▸ o.region r
  generalize s.slot r = x at this
  cases this with
  | some e => exact ⟨_, rfl, e⟩

theorem State.TableOp.tableLawful (o : s.TableOp A t) (h : s.tableLawful) : t.tableLawful := fun _ _ hk =>
  let ⟨_, hg, e⟩ := o.of_slot hk
  e.lawful (h _ _ hg)

theorem State.TableOp.extentsFilled (o : s.TableOp A t) (h : s.extentsFilled) : t.extentsFilled := fun _ _ hk =>
  let ⟨_, hg, e⟩ := o.of_slot hk
  e.extent ▸ h _ _ hg

/-- An operation done for every region of the table. -/
theorem State.tableOp_foldl {f : State → RegionIx → State} (hf : ∀ (s : State) (r : RegionIx), s.RegionOp A (f s r) r)
    (s : State) : s.TableOp A (allRegions.foldl f s) where
  toLockEvent := (State.foldl_regions (fun s r => (hf s r).toRegionEvent) allRegions_nodup s).1
  region r := by
    obtain ⟨t, -, hs, ht⟩ := State.foldl_allRegions_slot (fun s r => (hf s r).toRegionEvent) s r
    rw [ht, ← hs]
    exact (hf t r).region
  jobs hl hx h := (State.foldl_keeps (P := fun t => t.tableLawful ∧ t.extentsFilled ∧ t.jobsLaw)
    (fun t r ⟨h1, h2, h3⟩ => ⟨(hf t r).tableOp.tableLawful h1, (hf t r).tableOp.extentsFilled h2,
      (hf t r).tableOp.jobs h1 h2 h3⟩) allRegions ⟨hl, hx, h⟩).2.2
  idle hn := (State.foldl_keeps
    (P := fun t => (∀ r, t.slot r = none) ∧ t.jobQueue = s.jobQueue ∧ t.current = s.current ∧ t.starts = s.starts)
    (fun t r ⟨h1, h2, h3, h4⟩ => by
      obtain ⟨k2, k3, k4⟩ := (hf t r).tableOp.idle h1
      exact ⟨fun q => (hf t r).tableOp.slot_none (h1 q), k2.trans h2, k3.trans h3, k4.trans h4⟩)
    allRegions ⟨hn, rfl, rfl, rfl⟩).2

end

/-! ### What a command can do -/

/-- `t` keeps the part state, the lines, the supervisor, the divider and the store of `s`. -/
structure State.Frame (s t : State) : Prop where
  rstLow : t.rstLow = s.rstLow
  supervisor : t.supervisor = s.supervisor
  divider : t.divider = s.divider
  part : t.part = s.part
  store : t.store = s.store

/-- No region is defined, the engine has no job and reports none, and every port is DETACHED. -/
structure State.blank (s : State) : Prop where
  slot : ∀ r, s.slot r = none
  jobQueue : s.jobQueue = []
  current : s.current = none
  starts : s.starts = []
  reports : s.reports = []
  detached : ∀ p, (s.port p).state = .detached

/-- What a command does that moves neither a reset line, the divider nor the sweep. -/
structure State.Effect (s t : State) : Prop where
  frame : s.Frame t
  blank : s.part = .starting → s.blank → s.Beside t
  table : s.TableStep t
  jobs : s.tableLawful → s.extentsFilled → s.jobsLaw → t.jobsLaw

section
variable {s t u : State}

theorem State.SameCore.frame (h : s.SameCore t) : s.Frame t := ⟨h.rstLow, h.supervisor, h.divider, h.part, h.store⟩

theorem State.Frame.trans (h : s.Frame t) (k : t.Frame u) : s.Frame u :=
  ⟨k.rstLow.trans h.rstLow, k.supervisor.trans h.supervisor, k.divider.trans h.divider, k.part.trans h.part,
    k.store.trans h.store⟩

theorem State.LockEvent.frame (h : s.LockEvent t) : s.Frame t :=
  ⟨h.rstLow, h.supervisor, h.divider, h.part, h.store⟩

theorem State.SameCore.tableLawful (h : s.SameCore t) (hl : s.tableLawful) : t.tableLawful :=
  fun r g hg => hl r g (h.slot r ▸ hg)

theorem State.SameCore.extentsFilled (h : s.SameCore t) (hx : s.extentsFilled) : t.extentsFilled :=
  fun r g hg => hx r g (h.slot r ▸ hg)

theorem State.Beside.blank (h : s.Beside t) (hb : s.blank) : t.blank :=
  ⟨fun r => (h.slot r).trans (hb.slot r), h.jobQueue.trans hb.jobQueue, h.current.trans hb.current,
    h.starts.trans hb.starts, h.reports.trans hb.reports, fun p => (h.portState p).trans (hb.detached p)⟩

theorem State.Beside.effect (h : s.Beside t) : s.Effect t where
  frame := h.toSameCore.frame
  blank _ _ := h
  table := State.tableStep_of_slots h.slot fun p hp => (h.portState p).symm.trans hp
  jobs _ _ := h.toSameCore.sameJobs.jobsLaw

theorem State.Beside.trans_effect (h : s.Beside t) (e : t.Effect u) : s.Effect u where
  frame := h.toSameCore.frame.trans e.frame
  blank hp hb := h.trans (e.blank (h.part.trans hp) (h.blank hb))
  table := by
    cases e.table with
    | evolves region ports =>
      refine .evolves (fun r k hk => ?_) fun p hp => ?_
      · obtain ⟨g, hg, he⟩ := region r k hk
        refine ⟨g, (h.slot r).symm.trans hg, he.extent, he.generation, he.digest, he.lawful, fun p hp => ?_⟩
        exact (he.involves p hp).imp_right fun ha => (h.portState p).symm.trans ha
      · exact (ports p hp).imp (fun hd => (h.portState p).symm.trans hd) fun hn hl => hn (h.toSameCore.tableLawful hl)
    | defines free good apart defined others ports =>
      refine .defines ((h.slot _).symm.trans free) good ?_ defined (fun q hq => (others q hq).trans (h.slot q))
        fun p => (ports p).trans (h.portState p)
      rw [← apart]
      simp only [State.overlapped, h.slot]
  jobs hl hx hj := e.jobs (h.toSameCore.tableLawful hl) (h.toSameCore.extentsFilled hx) (h.toSameCore.sameJobs.jobsLaw hj)

theorem State.Effect.trans_beside (e : s.Effect t) (h : t.Beside u) : s.Effect u where
  frame := e.frame.trans h.toSameCore.frame
  blank hp hb := (e.blank hp hb).trans h
  table := by
    cases e.table with
    | evolves region ports =>
      exact .evolves (fun r k hk => region r k (h.slot r ▸ hk)) fun p hp =>
        (ports p (h.portState p ▸ hp)).imp_right fun hn hl r k hk => hn hl r k (h.slot r ▸ hk)
    | defines free good apart defined others ports =>
      exact .defines free good apart ((h.slot _).trans defined) (fun q hq => (h.slot q).trans (others q hq))
        fun p => (h.portState p).trans (ports p)
  jobs hl hx hj := h.toSameCore.sameJobs.jobsLaw (e.jobs hl hx hj)

theorem State.Effect.refl (s : State) : s.Effect s := (State.Beside.refl s).effect

theorem State.TableOp.beside (o : s.TableOp A t) (hb : s.blank) : s.Beside t := by
  obtain ⟨h1, h2, h3⟩ := o.idle hb.slot
  exact ⟨⟨o.rstLow, o.supervisor, o.divider, o.part, h1, h2, h3, o.reports, o.store,
    fun r => (o.slot_none (hb.slot r)).trans (hb.slot r).symm⟩, o.port_state⟩

theorem State.TableOp.effect (o : s.TableOp s.attachedPort t) : s.Effect t where
  frame := o.toLockEvent.frame
  blank _ := o.beside
  table := .evolves (fun _ _ hk => o.of_slot hk) fun p hp => .inl ((o.port_state p).symm.trans hp)
  jobs := o.jobs

theorem State.RegionOp.effect {r : RegionIx} (o : s.RegionOp s.attachedPort t r) : s.Effect t := o.tableOp.effect

theorem State.Changes.effect {r : RegionIx} (c : s.Continues s.attachedPort t r) : s.Effect t :=
  (State.Continues.regionOp c).effect

/-- A port leaves: its interface changes before or after an operation that ends its part in every region, and it is
DETACHED then (R163, R165). -/
theorem State.effect_of_leaving {a b : State} {p : Port} (h1 : s.SameCore a)
    (o : a.TableOp (fun _ => False) b) (h2 : b.SameCore t) (hp : (t.port p).state = .detached)
    (hq : ∀ q, q ≠ p → (t.port q).state = (s.port q).state)
    (hn : a.tableLawful → ∀ r k, b.slot r = some k → ¬ k.involves p) : s.Effect t where
  frame := (h1.frame.trans o.toLockEvent.frame).trans h2.frame
  blank _ hb := by
    obtain ⟨k1, k2, k3⟩ := o.idle fun r => (h1.slot r).trans (hb.slot r)
    refine ⟨h1.trans (State.SameCore.trans ⟨o.rstLow, o.supervisor, o.divider, o.part, k1, k2, k3, o.reports, o.store,
      fun r => ?_⟩ h2), fun q => ?_⟩
    · have := (h1.slot r).trans (hb.slot r)
      rw [this, o.slot_none this]
    · by_cases h : q = p
      · rw [h, hp, hb.detached p]
      · exact hq q h
  table := by
    refine .evolves (fun r k hk => ?_) fun q hd => ?_
    · obtain ⟨g, hg, e⟩ := o.of_slot (h2.slot r ▸ hk)
      exact ⟨g, (h1.slot r).symm.trans hg, e.extent, e.generation, e.digest, e.lawful,
        fun q hq => .inl ((e.involves q hq).resolve_right id)⟩
    · by_cases h : q = p
      · subst h
        exact .inr fun hl r k hk => hn (h1.tableLawful hl) r k (h2.slot r ▸ hk)
      · exact .inl ((hq q h).symm.trans hd)
  jobs hl hx hj := h2.sameJobs.jobsLaw
    (o.jobs (h1.tableLawful hl) (h1.extentsFilled hx) (h1.sameJobs.jobsLaw hj))

end

end Sys2Proof.Machine
end

section
/-! SUPPORT. Every access of a host, command by command, is what `State.Effect` says: the decisions of the lock engine,
the window writes, the view accesses, and their taking by the interface. -/

namespace Sys2Proof.Machine

/-! ### Decisions -/

theorem State.effect_whenAttached {s : State} {p : Port} {k : Decision}
    (h : s.part = .ready → (s.port p).state = .attached → s.Effect k.1) : s.Effect (s.whenAttached p k).1 := by
  unfold State.whenAttached
  split
  · exact State.Effect.refl s
  · next hp =>
    split
    · exact State.Effect.refl s
    · next hd =>
      refine h ?_ ?_
      · cases hs : s.part
        exacts [absurd hs hp, rfl]
      · cases hs : (s.port p).state
        exacts [absurd hs hd, rfl]

theorem State.effect_onRegion {s : State} {p : Port} {r : RegionIx} {k : Region → Decision}
    (h : ∀ g, s.attachedPort p → s.slot r = some g → s.Effect (k g).1) : s.Effect (s.onRegion p r k).1 := by
  refine State.effect_whenAttached fun _ ha => ?_
  split
  · exact State.Effect.refl s
  · next g hg => exact h g ha hg

theorem State.effect_asSupervisor {s : State} {p : Port} {k : Decision} (h : s.part = .ready → s.Effect k.1) :
    s.Effect (s.asSupervisor p k).1 := by
  refine State.effect_whenAttached fun hp _ => ?_
  split
  · exact h hp
  · exact State.Effect.refl s

theorem State.beside_launched (s : State) (p : Port) (word : Word) : s.Beside (s.launched p word) :=
  s.beside_updPort p (f := fun i => { i with cmd := word }) rfl

theorem State.beside_answered (s : State) (p : Port) (code : BitVec 8) (value : Word) :
    s.Beside (s.answered p code value) :=
  s.beside_updPort p (f := fun i => { i with cres := code, cresv := value, bus := .wrote }) rfl

/-- A command word is its decision between two changes of its port's window (R175). -/
theorem State.effect_launch {p : Port} {word : Word} {decide : State → Decision} {s : State}
    (h : ∀ s : State, s.Effect (decide s).1) : s.Effect (launch p word decide s) := by
  rw [launch_eq]
  exact (s.beside_launched p word).trans_effect ((h _).trans_beside (State.beside_answered _ p _ _))

theorem effect_decideAttach (p : Port) (c : CmdFields) (s : State) : s.Effect (decideAttach p c s).1 := by
  unfold decideAttach
  split
  · exact State.Effect.refl s
  · next hs =>
    split
    · exact State.Effect.refl s
    · have core := s.sameCore_updPort p fun i => { i with state := .attached }
      refine ⟨core.frame, fun hp => absurd hp hs, State.tableStep_of_slots core.slot fun q hq => ?_,
        fun _ _ => core.sameJobs.jobsLaw⟩
      rw [State.port_updPort] at hq
      split at hq
      · cases hq
      · exact hq

/-- DETACH's work: the port's part in every region ends, and the port is DETACHED (R41, R163). -/
theorem State.effect_detached (s : State) (p : Port) :
    s.Effect ((allRegions.foldl (fun t r => t.leaveRegion p r) s).updPort p fun i => { i with state := .detached }) := by
  have op := State.tableOp_foldl (fun t r => State.Continues.regionOp (State.continues_leaveRegion (A := fun _ => False) t p r)) s
  have slots := fun r => State.foldl_allRegions_slot (fun t r => State.regionEvent_leaveRegion t p r) s r
  generalize allRegions.foldl (fun t r => t.leaveRegion p r) s = u at op slots
  refine State.effect_of_leaving (p := p) (State.SameCore.refl s) op (u.sameCore_updPort p _) (by simp)
    (fun q hq => ?_) fun hl r k hk => ?_
  · rw [State.port_updPort_of_ne _ _ hq]
    exact op.port_state q
  · obtain ⟨t, -, ht, hf⟩ := slots r
    exact State.leaveRegion_not_involves (fun g hg => hl r g (ht ▸ hg)) (hf ▸ hk)

theorem effect_decideDetach (p : Port) (c : CmdFields) (s : State) : s.Effect (decideDetach p c s).1 :=
  State.effect_whenAttached fun _ _ => s.effect_detached p

theorem Region.grantable_admits {g : Region} {m : Mode} (h : g.grantable m = true) : g.queue = [] ∧ g.admits m := by
  cases m <;> cases hs : g.state <;> simp_all [Region.grantable, Region.admits]

theorem effect_decideAcquire (p : Port) (c : CmdFields) (s : State) : s.Effect (decideAcquire p c s).1 := by
  unfold decideAcquire
  generalize (if c.exclusive then Mode.exclusive else .shared) = mode
  refine State.effect_onRegion fun g ha hg => ?_
  split
  · exact State.Effect.refl s
  · split
    · exact State.Effect.refl s
    · next hp =>
      split
      · exact State.Effect.refl s
      · next hh =>
        split
        · exact State.Effect.refl s
        · next hw =>
          have hw : ¬ g.waits p := fun h => hw (Region.waitsFor_iff.mpr h)
          split
          · next hgr => exact (State.Continues.setSlot hg (Region.continues_grant ha hw (Region.grantable_admits hgr).2)).effect
          · split
            · exact (State.Continues.setSlot hg (Region.continues_join ha hh hw (by simpa using hp))).effect
            · exact State.Effect.refl s

theorem effect_decideCancel (p : Port) (c : CmdFields) (s : State) : s.Effect (decideCancel p c s).1 := by
  refine State.effect_onRegion fun g _ hg => ?_
  split
  · exact ((State.Continues.setSlot hg (Region.continues_withdraw g p)).trans (State.continues_grantPass _ _)).effect
  · exact State.Effect.refl s

theorem effect_decideRelease (p : Port) (c : CmdFields) (s : State) : s.Effect (decideRelease p c s).1 := by
  refine State.effect_onRegion fun g _ _ => ?_
  split
  · exact ((State.continues_endHold s c.region p false).trans (State.continues_grantPass _ _)).effect
  · exact State.Effect.refl s

theorem effect_decideRenew (p : Port) (c : CmdFields) (s : State) : s.Effect (decideRenew p c s).1 := by
  refine State.effect_onRegion fun g _ hg => ?_
  split
  · exact State.Effect.refl s
  · next x hx =>
    split
    · exact State.Effect.refl s
    · next hl => exact (State.Continues.setSlot hg (Region.continues_renew hx hl)).effect

theorem effect_decideMakePrivate (p : Port) (c : CmdFields) (s : State) : s.Effect (decideMakePrivate p c s).1 := by
  refine State.effect_onRegion fun g _ hg => ?_
  split
  · exact State.Effect.refl s
  · next he =>
    split
    · exact State.Effect.refl s
    · split
      · exact State.Effect.refl s
      · next hq =>
        exact (State.Continues.setSlot hg (Region.continues_makePrivate (by simpa using he) (by simpa using hq))).effect

theorem effect_decideRelinquish (p : Port) (c : CmdFields) (s : State) : s.Effect (decideRelinquish p c s).1 := by
  refine State.effect_onRegion fun g _ hg => ?_
  split
  · next hp =>
    exact ((State.Continues.setSlot hg (Region.continues_relinquish hp (onlyPort p))).trans
      (State.Continues.sendFence _ _ _ p)).effect
  · exact State.Effect.refl s

theorem effect_decideDigest (p : Port) (c : CmdFields) (s : State) : s.Effect (decideDigest p c s).1 := by
  refine State.effect_onRegion fun g _ hg => ?_
  split
  · exact State.Effect.refl s
  · next hm =>
    split
    · exact State.Effect.refl s
    · next hj =>
      have op := State.regionOp_queueJob (A := s.attachedPort) hg (fun _ => by simpa using hj) rfl
        (Region.evolves_digestJob (by simpa using hm) (some p))
      rw [← hg, State.setSlot_slot] at op
      exact op.effect

theorem effect_decideMessage (p : Port) (c : CmdFields) (s : State) : s.Effect (decideMessage p c s).1 := by
  refine State.effect_whenAttached fun _ _ => ?_
  split
  · exact State.Effect.refl s
  · split
    · exact State.Effect.refl s
    · exact State.Beside.effect (State.beside_updPort s c.target
        (f := fun i => { i with notes := i.notes ++ [.message p (s.port p).carg0] }) rfl)

/-- A slot with no job before and none after is no matter of the engine's. -/
theorem State.sameJobs_setSlot_of_noJob {s : State} {r : RegionIx} {x : Option Region}
    (h : s.jobAt r = none) (hx : ∀ g, x = some g → g.job = none) : s.SameJobs (s.setSlot r x) := by
  refine (State.regionEvent_setSlot s r x).sameJobs rfl rfl rfl ?_
  rw [h, State.jobAt, State.slot_setSlot_self]
  cases x with
  | none => rfl
  | some g => simp [hx g rfl]

/-- A fence request to each of the four ports (R14). -/
theorem State.sendFence_allPorts (s : State) (r : RegionIx) :
    allPorts.foldl (fun t q => t.sendFence r q) s =
      { s with fenceRequests := s.fenceRequests ++ [(.p0, r), (.p1, r), (.p2, r), (.p3, r)] } := by
  simp [allPorts, State.sendFence]

/-- DEFINE's work on a free slot (R13, R14). -/
theorem State.effect_defined {s : State} {r : RegionIx} {e : Extent} (a : Attributes) (hp : s.part = .ready)
    (hf : s.slot r = none) (hb : e.bad = false) (ho : s.overlapped e = false) :
    s.Effect (s.setSlot r (some (freshRegion e a))) where
  frame := ⟨rfl, rfl, rfl, rfl, rfl⟩
  blank h := by rw [hp] at h; cases h
  table := .defines hf hb ho (State.slot_setSlot_self s r _) (fun q hq => State.slot_setSlot_of_ne s _ hq) fun _ => rfl
  jobs _ _ := State.SameJobs.jobsLaw
    (State.sameJobs_setSlot_of_noJob (State.jobAt_of_none hf) fun g hg => (Option.some.inj hg) ▸ rfl)

theorem effect_decideDefine (p : Port) (c : CmdFields) (s : State) : s.Effect (decideDefine p c s).1 := by
  refine State.effect_asSupervisor fun hr => ?_
  dsimp only
  split
  · exact State.Effect.refl s
  · next hf =>
    split
    · exact State.Effect.refl s
    · next hb =>
      split
      · exact State.Effect.refl s
      · next ho =>
        rw [State.sendFence_allPorts]
        refine State.Effect.trans_beside (State.effect_defined _ hr (by simpa using hf) (by simpa using hb)
          (by simpa using ho)) ⟨⟨rfl, rfl, rfl, rfl, rfl, rfl, rfl, rfl, rfl, fun _ => rfl⟩, fun _ => rfl⟩

theorem effect_decideModify (p : Port) (c : CmdFields) (s : State) : s.Effect (decideModify p c s).1 := by
  refine State.effect_asSupervisor fun _ => ?_
  split
  · exact State.Effect.refl s
  · next g hg =>
    split
    · next hi => exact (State.Continues.setSlot hg (Region.continues_modify hi _)).effect
    · exact State.Effect.refl s

/-- DELETE's work on a region with no job (R17). -/
theorem State.effect_deleted {s : State} {r : RegionIx} {g : Region} (hp : s.part = .ready) (hg : s.slot r = some g)
    (hj : g.job = none) : s.Effect (s.setSlot r none) where
  frame := ⟨rfl, rfl, rfl, rfl, rfl⟩
  blank h := by rw [hp] at h; cases h
  table := by
    refine .evolves (fun q k hk => ?_) fun _ => .inl
    rw [State.slot_setSlot] at hk
    split at hk
    · cases hk
    · exact ⟨k, hk, Region.Evolves.refl k⟩
  jobs _ _ := by
    have hn : s.jobAt r = none := by simp [State.jobAt_of_slot hg, hj]
    exact State.SameJobs.jobsLaw (State.sameJobs_setSlot_of_noJob hn fun _ h => by cases h)

theorem effect_decideDelete (p : Port) (c : CmdFields) (s : State) : s.Effect (decideDelete p c s).1 := by
  refine State.effect_asSupervisor fun hr => ?_
  split
  · exact State.Effect.refl s
  · next g hg =>
    split
    · next hi =>
      simp only [Region.idle, Bool.and_eq_true] at hi
      exact State.effect_deleted hr hg (by simpa using hi.2)
    · exact State.Effect.refl s

theorem State.continues_reclaimHeld {A : Port → Prop} {s : State} {r : RegionIx} {g : Region} (hg : s.slot r = some g)
    (hs : g.state ≠ .wiping) (p : Port) : s.Continues A (s.reclaimHeld r g p) r :=
  (State.continues_reclaimed hg hs p g.holderSet).trans
    (State.Continues.foldl (fun t q => State.continues_fenceIf t r r g.holderSet q) allPorts _)

theorem State.continues_reclaimPrivate {A : Port → Prop} {s : State} {r : RegionIx} {g : Region} (hg : s.slot r = some g)
    (hs : g.state ≠ .wiping) (p q : Port) : s.Continues A (s.reclaimPrivate r g p q) r :=
  ((State.Continues.offer s r q (.revoked r .proprietor .reclaim)).trans
    (State.Continues.setSlot (s := s.offer q (.revoked r .proprietor .reclaim)) hg
      (Region.continues_reclaimed hs p (onlyPort q)))).trans (State.Continues.sendFence _ r r q)

theorem effect_decideReclaim (p : Port) (c : CmdFields) (s : State) : s.Effect (decideReclaim p c s).1 := by
  refine State.effect_asSupervisor fun _ => ?_
  split
  · exact State.Effect.refl s
  · next g hg =>
    have idle : g.state ≠ .wiping → s.Effect (s.reclaimIdle c.region g p) := fun hs =>
      ((State.continues_reclaimed hg hs p _).trans_op (State.regionOp_decideDrain _ _)).effect
    have convert : g.state ≠ .wiping → ∀ d, s.Effect (s.convertDrain c.region g d p) := fun hs d =>
      (State.continues_reclaimed hg hs p _).effect
    split
    · next hs => exact idle (by simp [hs])
    · next hs => exact idle (by simp [hs])
    · next hs => exact (State.continues_reclaimHeld hg (by simp [hs]) p).effect
    · next q hs => exact (State.continues_reclaimPrivate hg (by simp [hs]) p q).effect
    · next d hs =>
      have hs : g.state ≠ .wiping := by simp [hs]
      split
      · exact convert hs d
      · exact convert hs d
      · exact State.Effect.refl s
      · exact State.Effect.refl s
    · exact State.Effect.refl s

/-- A port reset, its line apart (R165). -/
theorem effect_resetPort (s : State) (p : Port) (o : Option Instr) : s.Effect (s.resetPort p o) := by
  generalize ha : ((s.reportMarks p).updPort p fun i => i.restored o) = a
  have core : s.SameCore a := ha ▸ ⟨rfl, rfl, rfl, rfl, rfl, rfl, rfl, rfl, rfl, fun _ => rfl⟩
  have hport : ∀ q, (a.port q).state = if q = p then .detached else (s.port q).state := fun q => by
    rw [← ha, State.port_updPort]
    split
    exacts [rfl, rfl]
  have op := State.tableOp_foldl (fun t r => State.regionOp_cutRegion (A := fun _ => False) t p r) a
  have ht : s.resetPort p o = allRegions.foldl (fun t r => t.cutRegion p r) a := by rw [← ha]; rfl
  rw [ht]
  refine State.effect_of_leaving core op (State.SameCore.refl _) (p := p) ?_ (fun q hq => ?_) fun hl r k hk => ?_
  · rw [op.port_state, hport, if_pos rfl]
  · rw [op.port_state, hport, if_neg hq]
  · obtain ⟨t, -, ht, hf⟩ := State.foldl_allRegions_slot (fun t r => State.regionEvent_cutRegion t p r) a r
    exact State.cutRegion_not_involves (fun g hg => hl r g (ht ▸ hg)) (hf ▸ hk)

theorem effect_decideEvict (p : Port) (c : CmdFields) (s : State) : s.Effect (decideEvict p c s).1 := by
  refine State.effect_asSupervisor fun _ => ?_
  split
  · exact State.Effect.refl s
  · have reset := effect_resetPort s c.target none
    generalize s.resetPort c.target none = t at reset ⊢
    exact reset

/-! ### The register window -/

theorem State.beside_windowEffect (s : State) (p : Port) {f : PortIface → PortIface} (h : ∀ i, (f i).state = i.state) :
    s.Beside (windowEffect p f s) := s.beside_updPort p (h _)

theorem PortIface.state_pop (i : PortIface) : i.pop.state = i.state := by
  unfold PortIface.pop; split <;> rfl

theorem PortIface.state_placeAperture (i : PortIface) (n : ApertureIx) (f : Placement) (v : Word) :
    (i.placeAperture n f v).state = i.state := by
  unfold PortIface.placeAperture; split <;> rfl

theorem PortIface.state_writeAttr (i : PortIface) (n : ApertureIx) (v : Word) : (i.writeAttr n v).state = i.state := by
  unfold PortIface.writeAttr
  dsimp only
  split
  · rfl
  · split <;> rfl
  · rfl
  · split <;> rfl

theorem PortIface.state_writeWindow (i : PortIface) (off : BitVec 8) (be : Enables) (v : Word) :
    (i.writeWindow off be v).state = i.state := by
  unfold PortIface.writeWindow
  repeat' split
  all_goals rfl

theorem beside_takeSarb (p : Port) (v : Word) (s : State) : s.Beside (takeSarb p v s) := by
  have hc := s.beside_complete p .wrote
  unfold takeSarb
  generalize s.complete p .wrote = u at hc ⊢
  dsimp only
  split
  · exact hc.trans ⟨⟨rfl, rfl, rfl, rfl, rfl, rfl, rfl, rfl, rfl, fun _ => rfl⟩, fun _ => rfl⟩
  · exact hc

/-! ### View accesses -/

theorem State.beside_failRead (s : State) (p : Port) (k : FaultKind) (a : BusAddr) (w : Option (BitVec 18)) :
    s.Beside (s.failRead p k a w) := by
  rw [State.failRead_eq]; exact s.beside_updPort p rfl

theorem State.beside_failWrite (s : State) (p : Port) (k : FaultKind) (a : Half) (w : Option (BitVec 18)) :
    s.Beside (s.failWrite p k a w) := by
  rw [State.failWrite_eq]; exact s.beside_updPort p rfl

theorem State.effect_noteWrite (s : State) (p : Port) (w : StoreAddr) : s.Effect (s.noteWrite p w) :=
  (State.continues_noteWrite (A := s.attachedPort) s p w).elim fun _ c => c.effect

theorem State.effect_acceptPosted (s : State) (p : Port) (va : Half) (w : StoreWrite) : s.Effect (s.acceptPosted p va w) := by
  unfold State.acceptPosted
  split
  · exact (s.beside_failWrite p _ va _).effect
  · exact (s.effect_noteWrite p w.addr).trans_beside ((State.beside_updPort _ p (by rfl)).trans (State.beside_complete _ p _))

theorem State.effect_acceptBlocking (s : State) (p : Port) (va : Half) (w : StoreWrite) :
    s.Effect (s.acceptBlocking p va w) := by
  unfold State.acceptBlocking
  split
  · exact (s.beside_failWrite p _ va _).effect
  · exact (s.effect_noteWrite p w.addr).trans_beside (State.beside_updPort _ p (by rfl))

theorem State.effect_offerPosted (s : State) (p : Port) (va : Half) (w : StoreWrite) : s.Effect (s.offerPosted p va w) := by
  unfold State.offerPosted
  split
  · exact s.effect_acceptPosted p va w
  · exact (s.beside_updPort p (by rfl)).effect

theorem State.effect_acceptHeld (s : State) (p : Port) : s.Effect (s.acceptHeld p) := by
  unfold State.acceptHeld
  split
  · exact State.Effect.refl s
  · split
    · exact (s.beside_updPort p (by rfl)).trans_effect (State.effect_acceptPosted _ p _ _)
    · exact State.Effect.refl s

theorem effect_takeViewRead (p : Port) (a : BusAddr) (s : State) : s.Effect (takeViewRead p a s) := by
  unfold takeViewRead
  split
  · exact (s.beside_failRead p _ a _).effect
  · split
    · exact (s.beside_failRead p _ a _).effect
    · exact (s.beside_updPort p (by rfl)).effect

theorem effect_takeViewWrite (p : Port) (a : BusAddr) (be : Enables) (v : Word) (s : State) :
    s.Effect (takeViewWrite p a be v s) := by
  unfold takeViewWrite
  split
  · exact (s.beside_complete p .wrote).effect
  · split
    · exact (s.beside_failWrite p _ _ _).effect
    · exact s.effect_offerPosted p _ _
    · exact s.effect_acceptBlocking p _ _

/-! ### Every access -/

/-- Every access that an interface takes. -/
theorem effect_takeAccess (c : Instr) (s : State) : s.Effect (takeAccess c s) := by
  cases c with
  | attach p c => exact State.effect_launch (effect_decideAttach p c)
  | detach p c => exact State.effect_launch (effect_decideDetach p c)
  | acquire p c => exact State.effect_launch (effect_decideAcquire p c)
  | cancel p c => exact State.effect_launch (effect_decideCancel p c)
  | release p c => exact State.effect_launch (effect_decideRelease p c)
  | renew p c => exact State.effect_launch (effect_decideRenew p c)
  | makePrivate p c => exact State.effect_launch (effect_decideMakePrivate p c)
  | relinquish p c => exact State.effect_launch (effect_decideRelinquish p c)
  | digest p c => exact State.effect_launch (effect_decideDigest p c)
  | message p c => exact State.effect_launch (effect_decideMessage p c)
  | define p c => exact State.effect_launch (effect_decideDefine p c)
  | modify p c => exact State.effect_launch (effect_decideModify p c)
  | delete p c => exact State.effect_launch (effect_decideDelete p c)
  | reclaim p c => exact State.effect_launch (effect_decideReclaim p c)
  | evict p c => exact State.effect_launch (effect_decideEvict p c)
  | badCommand p w =>
    exact State.Beside.effect (State.beside_windowEffect s p (f := fun i => { i with cmd := w, cres := Result.badCommand.code, cresv := 0#32 }) fun _ => rfl)
  | npop p v => exact (s.beside_windowEffect p PortIface.state_pop).effect
  | fclr p v =>
    exact State.Beside.effect (State.beside_windowEffect s p (f := fun i => { i with fault := none }) fun _ => rfl)
  | nmask p v =>
    exact State.Beside.effect (State.beside_windowEffect s p (f := fun i => { i with kindMask := v.extractLsb' 1 8 }) fun _ => rfl)
  | lwarn p v =>
    exact State.Beside.effect (State.beside_windowEffect s p (f := fun i => { i with lwarn := v.extractLsb' 0 16 }) fun _ => rfl)
  | fill p v =>
    exact State.Beside.effect (State.beside_windowEffect s p (f := fun i => { i with fill := v }) fun _ => rfl)
  | sarb p v => exact (beside_takeSarb p v s).effect
  | aperturePlacementWrite p n f v =>
    exact (s.beside_windowEffect p fun i => i.state_placeAperture n f v).effect
  | attrWrite p n v => exact (s.beside_windowEffect p fun i => i.state_writeAttr n v).effect
  | pstatRead p =>
    exact State.Beside.effect (State.beside_updPort s p
      (f := fun i => { i with bus := .read (s.pstat p), popEmpty := false, apertureRefused := false }) rfl)
  | windowWrite p off be v => exact (s.beside_windowEffect p fun i => i.state_writeWindow off be v).effect
  | viewRead p a => exact effect_takeViewRead p a s
  | viewWrite p a be v => exact effect_takeViewWrite p a be v s
  | _ => exact State.Effect.refl s

/-- An access offered: taken, waiting, overtaken, or not answered by a next state. -/
theorem effect_hostAccess {p : Port} {c : Instr} {s t : State} {take : State → State} (h : hostAccess p c s take = .next t)
    (ht : s.Effect (take s)) : s.Effect t := by
  obtain ⟨-, ⟨-, rfl⟩ | ⟨-, ⟨-, rfl⟩ | ⟨-, rfl⟩⟩⟩ := hostAccess_next h
  · exact ht
  · exact (s.beside_updPort p (by rfl)).effect
  · exact (s.beside_updPort p (by rfl)).effect

/-- A command that a host gives through its bus is that access, offered on its port. -/
theorem exec_host {c : Instr} (s : State) (h : (encodeBus c).isSome = true) :
    ∃ p, exec c s = hostAccess p c s (takeAccess c) := by
  cases c with
  | postedWriteAccept _ | postedWriteLanding _ | blockingWriteLanding _ | blockingReadSlot _ | wipeWord | digestWord
  | sweepWord | startupSweepEnd | fenceRequest _ _ | fenceCompletion _ _ | drainEnd _ | leaseTick | leaseExpiry _
  | jobStart | wipeCompletion _ | digestCompletion _ | portReset _ | portResetRelease _ | warmReset | resetRelease _
  | powerOn => exact absurd h Bool.false_ne_true
  | _ => exact ⟨_, rfl⟩

/-- Every command a host gives through its bus. -/
theorem effect_exec_host {c : Instr} {s t : State} (hc : (encodeBus c).isSome = true) (h : exec c s = .next t) :
    s.Effect t := by
  obtain ⟨p, hp⟩ := exec_host s hc
  exact effect_hostAccess (hp ▸ h) (effect_takeAccess c s)

end Sys2Proof.Machine
end

section
/-! SUPPORT. Every step, sorted by what it can do to the device's laws: the events of the device beside the hosts'
accesses, and the step itself. -/

namespace Sys2Proof.Machine

/-! ### The lock engine's and the store's events -/

section
variable {s t u : State}

theorem Region.Evolves.mono {A B : Port → Prop} {g h : Region} (hAB : ∀ p, A p → B p) (e : g.Evolves A h) :
    g.Evolves B h :=
  ⟨e.extent, e.generation, e.digest, e.lawful, fun p hp => (e.involves p hp).imp_right (hAB p)⟩

/-- A change that leaves the generation, and then another. -/
theorem Region.Evolves.trans_same {A : Port → Prop} {g h k : Region} (h1 : g.Evolves A h)
    (hg : h.generation = g.generation) (h2 : h.Evolves A k) : g.Evolves A k :=
  ⟨h2.extent.trans h1.extent, fun hl => hg ▸ h2.generation (h1.lawful hl), fun hd => h2.digest (h1.digest hd),
    h2.lawful ∘ h1.lawful, fun p hp => (h2.involves p hp).elim (h1.involves p) .inr⟩

theorem State.beside_grantSlot {c : Client} (h : s.grantSlot c = some t) : s.Beside t := by
  obtain ⟨-, rfl⟩ := State.grantSlot_some h
  exact ⟨⟨rfl, rfl, rfl, rfl, rfl, rfl, rfl, rfl, rfl, fun _ => rfl⟩, fun _ => rfl⟩

theorem State.beside_countLanding (s : State) (p : Port) : s.Beside (s.countLanding p) :=
  (State.beside_updPort s p
    (f := fun i => { i with fences := ((s.port p).fences.filter fun m => !m.last).map FenceMark.less }) rfl).trans
    ⟨⟨rfl, rfl, rfl, rfl, rfl, rfl, rfl, rfl, rfl, fun _ => rfl⟩, fun _ => rfl⟩

theorem State.Beside.landWrite (h : s.Beside t) (w : StoreWrite) : (s.landWrite w).Beside (t.landWrite w) where
  rstLow := h.rstLow
  supervisor := h.supervisor
  divider := h.divider
  part := h.part
  jobQueue := h.jobQueue
  current := h.current
  starts := h.starts
  reports := h.reports
  store := by simp only [State.store_landWrite, h.store]
  slot := h.slot
  portState := h.portState

/-- A slot given to a port for its posted queue: the head lands, and then everything is as `State.Effect` says. -/
theorem effect_postedWriteLanding {p : Port} (h : exec (.postedWriteLanding p) s = .next t) :
    s.Effect t ∨ ∃ w, (s.landWrite w).Effect t := by
  obtain rfl := Host.Outcome.next.inj h
  split
  · exact .inl (State.Effect.refl s)
  · rcases s.inSlot_cases (.port p) (State.landPosted p) with h | ⟨u, hu, h⟩ <;> rw [h]
    · exact .inl (State.Effect.refl s)
    · have hs := State.beside_grantSlot hu
      unfold State.landPosted
      split
      · exact .inl hs.effect
      · next w rest _ =>
        refine .inr ⟨w, (hs.landWrite w).trans_effect ?_⟩
        exact ((State.beside_updPort _ p (f := fun i => { i with posted := rest }) rfl).trans
          (State.beside_countLanding _ p)).trans_effect (State.effect_acceptHeld _ p)

theorem effect_blockingWriteLanding {p : Port} (h : exec (.blockingWriteLanding p) s = .next t) :
    s.Effect t ∨ ∃ w, (s.landWrite w).Effect t := by
  obtain rfl := Host.Outcome.next.inj h
  split
  · split
    · next w _ =>
      rcases s.inSlot_cases (.port p) (State.landBlocking p w) with h | ⟨u, hu, h⟩ <;> rw [h]
      · exact .inl (State.Effect.refl s)
      · exact .inr ⟨w, ((((State.beside_grantSlot hu).landWrite w).trans
          (State.beside_updPort _ p (f := fun i => { i with blocking := none, bus := .wrote }) rfl)).trans
            (State.beside_countLanding _ p)).effect⟩
    · exact .inl (State.Effect.refl s)
    · exact .inl (State.Effect.refl s)
  · exact .inl (State.Effect.refl s)

theorem effect_blockingReadSlot {p : Port} (h : exec (.blockingReadSlot p) s = .next t) : s.Effect t := by
  obtain rfl := Host.Outcome.next.inj h
  split
  · split
    · next w _ =>
      rcases s.inSlot_cases (.port p) (State.readBlocking p w) with h | ⟨u, hu, h⟩ <;> rw [h]
      · exact State.Effect.refl s
      · exact State.Beside.effect ((State.beside_grantSlot hu).trans
          (State.beside_updPort u p (f := fun i => { i with blocking := none, bus := .read (u.store.readWord w) }) rfl))
    · exact State.Effect.refl s
    · exact State.Effect.refl s
  · exact State.Effect.refl s

theorem effect_fenceRequest {p : Port} {r : RegionIx} (h : exec (.fenceRequest p r) s = .next t) : s.Effect t := by
  obtain rfl := Host.Outcome.next.inj h
  split
  · unfold State.takeFence
    split
    · exact State.Beside.effect ⟨⟨rfl, rfl, rfl, rfl, rfl, rfl, rfl, rfl, rfl, fun _ => rfl⟩, fun _ => rfl⟩
    · refine State.Beside.effect (State.Beside.trans
        (t := { s with fenceRequests := s.fenceRequests.erase (p, r) })
        ⟨⟨rfl, rfl, rfl, rfl, rfl, rfl, rfl, rfl, rfl, fun _ => rfl⟩, fun _ => rfl⟩ (State.beside_updPort _ p ?_))
      rfl
  · exact State.Effect.refl s

theorem effect_fenceCompletion {p : Port} {r : RegionIx} (h : exec (.fenceCompletion p r) s = .next t) : s.Effect t := by
  obtain rfl := Host.Outcome.next.inj h
  split
  · have hs : s.Beside { s with completions := s.completions.erase (p, r) } :=
      ⟨⟨rfl, rfl, rfl, rfl, rfl, rfl, rfl, rfl, rfl, fun _ => rfl⟩, fun _ => rfl⟩
    generalize ({ s with completions := s.completions.erase (p, r) } : State) = u at hs
    dsimp only
    split
    · exact hs.trans_effect ((State.Continues.trans_op (State.changes_updRegion u r fun g => Region.continues_fenceDone g p)
        (State.regionOp_decideDrain _ r)).effect)
    · exact hs.effect
  · exact State.Effect.refl s

/-! ### The sweep engine's events -/

theorem State.evolves_takeStart {A : Port → Prop} {r : RegionIx} {k : Region} (h : s.takeStart.slot r = some k) :
    ∃ g, s.slot r = some g ∧ g.Evolves A k := by
  rcases s.takeStart_cases with ⟨-, h'⟩ | ⟨q, rest, -, h'⟩ <;> rw [h'] at h
  · exact ⟨k, h, Region.Evolves.refl k⟩
  · have h : (s.updRegion q fun g => { g with job := g.job.map JobMark.started }).slot r = some k := h
    rw [State.slot_updRegion] at h
    split at h
    · next hr =>
      obtain ⟨g, hg, rfl⟩ := Option.map_eq_some_iff.mp h
      exact ⟨g, hr ▸ hg, Region.evolves_started g⟩
    · exact ⟨k, h, Region.Evolves.refl k⟩

theorem State.evolves_startNext {A : Port → Prop} {r : RegionIx} {k : Region} (h : s.startNext.slot r = some k) :
    ∃ g, s.slot r = some g ∧ g.Evolves A k := by
  unfold State.startNext at h
  split at h
  · simpa using State.evolves_takeStart h
  · exact ⟨k, by simpa using h, Region.Evolves.refl k⟩

/-- A word of the job in progress (R94, R95). -/
theorem State.effect_advanceJob {x y : Progress} (hc : s.current = some x) (h1 : y.job = x.job) (h2 : y.extent = x.extent) :
    s.Effect (s.advanceJob y) where
  frame := by
    unfold State.advanceJob
    split
    · exact ⟨rfl, rfl, rfl, rfl, rfl⟩
    · constructor <;> simp
  blank _ hb := by rw [hb.current] at hc; cases hc
  table := by
    unfold State.advanceJob
    split
    · exact State.tableStep_of_slots (fun _ => rfl) fun _ => id
    · exact .evolves (fun r k hk => (State.evolves_startNext hk :)) fun p hp => .inl (by rw [State.port_startNext] at hp; exact hp)
  jobs _ hx hj := State.jobsLaw_advanceJob hj hx hc h1 h2

theorem effect_wipeWord (h : exec .wipeWord s = .next t) : s.Effect t ∨ ∃ w, (s.landWrite w).Effect t := by
  obtain rfl := Host.Outcome.next.inj h
  split
  · exact .inl (State.Effect.refl s)
  · next x hx =>
    split
    · rcases s.inSlot_cases .engine (State.wipeStep x) with h | ⟨u, hu, h⟩ <;> rw [h]
      · exact .inl (State.Effect.refl s)
      · have hs := State.beside_grantSlot hu
        refine .inr ⟨⟨BitVec.ofNat 15 (x.extent.wordAt x.done), 0#32, 15#4⟩, (hs.landWrite _).trans_effect ?_⟩
        exact State.effect_advanceJob (x := x) (hs.current.trans hx) rfl rfl
    · exact .inl (State.Effect.refl s)

theorem effect_digestWord (h : exec .digestWord s = .next t) : s.Effect t := by
  obtain rfl := Host.Outcome.next.inj h
  split
  · exact State.Effect.refl s
  · next x hx =>
    split
    · rcases s.inSlot_cases .engine (State.digestStep x) with h | ⟨u, hu, h⟩ <;> rw [h]
      · exact State.Effect.refl s
      · have hs := State.beside_grantSlot hu
        exact hs.trans_effect (State.effect_advanceJob (x := x) (hs.current.trans hx) rfl rfl)
    · exact State.Effect.refl s

theorem effect_jobStart (h : exec .jobStart s = .next t) : s.Effect t := by
  obtain rfl := Host.Outcome.next.inj h
  exact
    { frame := by constructor <;> simp
      blank := fun _ hb => by
        rw [State.startHead_takeStart_of_nothing (fun _ _ => hb.jobQueue) hb.starts]
        exact State.Beside.refl s
      table := .evolves (fun r k hk => by simpa using State.evolves_takeStart hk)
        fun p hp => .inl (by rw [State.port_takeStart, State.port_startHead] at hp; exact hp)
      jobs := fun _ _ hj => by
        rw [State.startHead_of_engineLaw hj.1]
        exact State.jobsLaw_takeStart hj }

/-- A completion taken: its region evolves and has no job, and an operation on that region follows (R97, R100). -/
theorem State.effect_complete {y : Report} {rest : List Report} {g k : Region} (hy : s.reports = y :: rest)
    (hs : y.region ∉ s.starts) (hg : s.slot y.region = some g) (hk : k.job = none)
    (he : g.Evolves (fun _ => False) k)
    (o : ({ s with reports := rest }.setSlot y.region (some k)).RegionOp (fun _ => False) u y.region)
    (hu : ∀ h, u.slot y.region = some h → g.Evolves (fun _ => False) h) : s.Effect u where
  frame := ⟨o.rstLow, o.supervisor, o.divider, o.part, o.store⟩
  blank _ hb := by rw [hb.reports] at hy; cases hy
  table := by
    refine .evolves (fun q h hq => ?_) fun p hp => .inl ((o.port_state p).symm.trans hp)
    by_cases hr : q = y.region
    · subst hr
      exact ⟨g, hg, (hu h hq).mono fun _ => False.elim⟩
    · rw [o.slot q hr, State.slot_setSlot_of_ne _ _ hr] at hq
      exact ⟨h, hq, Region.Evolves.refl h⟩
  jobs hl hx hj := by
    have keep : ∀ {P : Region → Prop}, (∀ r g, s.slot r = some g → P g) → P k →
        ∀ r g, ({ s with reports := rest }.setSlot y.region (some k)).slot r = some g → P g := by
      intro P hP hPk r g hr
      rw [State.slot_setSlot] at hr
      split at hr
      · exact Option.some.inj hr ▸ hPk
      · exact hP r g hr
    exact o.tableOp.jobs (keep hl (he.lawful (hl _ g hg)))
      (keep (P := fun g => 1 ≤ g.extent.count) hx (he.extent ▸ hx _ g hg)) (State.jobsLaw_complete hj hy hs hk)

theorem State.startTaken_iff (s : State) (r : RegionIx) : s.startTaken r = true ↔ r ∉ s.starts := by
  simp [State.startTaken]

theorem State.continues_offerTo {A : Port → Prop} (s : State) (r : RegionIx) (q : Option Port) (x : Record) :
    s.Continues A (s.offerTo q x) r := by
  cases q with
  | none => exact State.Continues.refl s r
  | some p => exact State.Continues.offer s r p x

/-- A completion with no job of its kind to complete is dropped, which a lawful state rules out. -/
theorem State.effect_dropReport {y : Report} {rest : List Report} (hy : s.reports = y :: rest)
    (hs : y.region ∉ s.starts) (hn : ∀ g q b, s.slot y.region = some g → g.job ≠ some ⟨y.kind, b, q⟩) :
    s.Effect { s with reports := rest } where
  frame := ⟨rfl, rfl, rfl, rfl, rfl⟩
  blank _ hb := by rw [hb.reports] at hy; cases hy
  table := State.tableStep_of_slots (fun _ => rfl) fun _ => id
  jobs _ _ hj := by
    obtain ⟨g, q, hg, hjob⟩ := hj.job_of_report hy hs
    exact absurd hjob (hn g q true hg)

theorem effect_wipeCompletion {r : RegionIx} (h : exec (.wipeCompletion r) s = .next t) : s.Effect t := by
  obtain rfl := Host.Outcome.next.inj h
  split
  · next r' rest hy =>
    split
    · next hr =>
      obtain ⟨rfl, ht⟩ := hr
      have hs := (s.startTaken_iff r').mp ht
      split
      · next g hg =>
        split
        · next b q hj =>
          have he := Region.evolves_wiped (A := fun _ => False) hj rfl
          have c := (State.continues_offerTo (A := fun _ => False) ({ s with reports := rest }.setSlot r' (some g.wiped)) r' q
            (.wipeDone r' (g.generation + 1#16))).trans (State.continues_grantPass _ r')
          refine State.effect_complete hy hs hg rfl he c.regionOp fun h hh => ?_
          obtain ⟨h', hh', hc⟩ := State.Changes.of_slot c (State.slot_setSlot_self _ r' _)
          obtain rfl : h' = h := Option.some.inj (hh'.symm.trans hh)
          exact he.trans_continues hc
        · next hn =>
          refine State.effect_dropReport hy hs fun g' q b hg' hj => ?_
          obtain rfl : g = g' := Option.some.inj (hg.symm.trans hg')
          exact hn b q hj
      · next hg => exact State.effect_dropReport hy hs fun g' q b hg' => absurd (hg.symm.trans hg') nofun
    · exact State.Effect.refl s
  · exact State.Effect.refl s

theorem State.regionOp_afterDigest {A : Port → Prop} (s : State) (r : RegionIx) (g : Region) :
    s.RegionOp A (s.afterDigest r g) r := by
  unfold State.afterDigest
  split
  · exact State.regionOp_decideDrain s r
  · exact State.RegionOp.refl s r

theorem effect_digestCompletion {r : RegionIx} (h : exec (.digestCompletion r) s = .next t) : s.Effect t := by
  obtain rfl := Host.Outcome.next.inj h
  split
  · next r' v rest hy =>
    split
    · next hr =>
      obtain ⟨rfl, ht⟩ := hr
      have hs := (s.startTaken_iff r').mp ht
      split
      · next g hg =>
        split
        · next b q hj =>
          have he := Region.evolves_digested (A := fun _ => False) hj rfl v
          have o := ((State.continues_offerTo (A := fun _ => False) ({ s with reports := rest }.setSlot r' (some (g.digested v)))
            r' q (.digestDone r' g.generation v)).trans (State.continues_grantPass _ r')).trans_op
              (State.regionOp_afterDigest _ r' g)
          refine State.effect_complete hy hs hg rfl he o fun h hh => ?_
          obtain ⟨k, hk, e⟩ := o.tableOp.of_slot (r := r') hh
          obtain rfl : g.digested v = k := Option.some.inj ((State.slot_setSlot_self _ _ _).symm.trans hk)
          exact he.trans_same rfl e
        · next hn =>
          refine State.effect_dropReport hy hs fun g' q b hg' hj => ?_
          obtain rfl : g = g' := Option.some.inj (hg.symm.trans hg')
          exact hn b q hj
      · next hg => exact State.effect_dropReport hy hs fun g' q b hg' => absurd (hg.symm.trans hg') nofun
    · exact State.Effect.refl s
  · exact State.Effect.refl s

/-! ### The pins -/

theorem State.effect_resume (s : State) (p : Port) : s.Effect (s.resume p) := by
  unfold State.resume
  split
  · split
    · exact State.Effect.refl s
    · next c _ =>
      exact (State.beside_updPort s p (f := fun i => { i with waiting := none }) rfl).trans_effect (effect_takeAccess c _)
  · exact State.Effect.refl s

theorem State.beside_setLine (s : State) (p : Port) (low : Bool) : s.Beside (s.setLine p low) :=
  State.beside_updPort s p (f := fun i => { i with resetLow := low }) rfl

theorem effect_portReset {p : Port} (h : exec (.portReset p) s = .next t) : s.Effect t := by
  obtain rfl := Host.Outcome.next.inj h
  split
  · exact State.Effect.refl s
  · split
    · exact (s.beside_setLine p true).effect
    · exact (s.beside_setLine p true).trans_effect (effect_resetPort _ p _)

theorem effect_portResetRelease {p : Port} (h : exec (.portResetRelease p) s = .next t) : s.Effect t := by
  obtain rfl := Host.Outcome.next.inj h
  split
  · exact (s.beside_setLine p false).trans_effect (State.effect_resume _ p)
  · exact State.Effect.refl s

/-! ### The sweep, the clock and the part resets -/

/-- `t` is `s` but for the store, the sweep and what is in flight; the part may have become READY, with RST_n high. -/
structure State.SweepStep (s t : State) : Prop where
  rstLow : t.rstLow = s.rstLow
  supervisor : t.supervisor = s.supervisor
  divider : t.divider = s.divider
  part : t.part = s.part ∨ (s.part = .starting ∧ s.rstLow = false ∧ t.part = .ready)
  jobQueue : t.jobQueue = s.jobQueue
  current : t.current = s.current
  starts : t.starts = s.starts
  reports : t.reports = s.reports
  slot : ∀ r, t.slot r = s.slot r
  portState : ∀ p, (t.port p).state = (s.port p).state

/-- The end of the sweep: the part becomes READY with RST_n high, or nothing happens (R104, R106). -/
theorem State.endSweep_cases (s : State) : s.endSweep = s ∨
    (s.part = .starting ∧ s.rstLow = false ∧ s.endSweep = { s with part := .ready, wipeList := [], swept := 0 }) := by
  unfold State.endSweep
  split
  · next h =>
    simp only [Bool.and_eq_true, decide_eq_true_eq, Bool.not_eq_true'] at h
    exact .inr ⟨h.1.1, h.1.2, rfl⟩
  · exact .inl rfl

theorem State.sweepStep_endSweep (s : State) : s.SweepStep s.endSweep ∧ s.endSweep.store = s.store := by
  rcases s.endSweep_cases with h | ⟨hp, hr, h⟩ <;> rw [h]
  · exact ⟨⟨rfl, rfl, rfl, .inl rfl, rfl, rfl, rfl, rfl, fun _ => rfl, fun _ => rfl⟩, rfl⟩
  · exact ⟨⟨rfl, rfl, rfl, .inr ⟨hp, hr, rfl⟩, rfl, rfl, rfl, rfl, fun _ => rfl, fun _ => rfl⟩, rfl⟩

theorem State.sweepStep_refl (s : State) : s.SweepStep s :=
  ⟨rfl, rfl, rfl, .inl rfl, rfl, rfl, rfl, rfl, fun _ => rfl, fun _ => rfl⟩

/-- Before the end of the sweep only the store and the sweep's count move. -/
theorem State.Beside.sweepStep {a : State} (h : s.Beside a) (k : a.SweepStep t) : s.SweepStep t where
  rstLow := k.rstLow.trans h.rstLow
  supervisor := k.supervisor.trans h.supervisor
  divider := k.divider.trans h.divider
  part := k.part.imp (fun e => e.trans h.part) fun ⟨h1, h2, h3⟩ => ⟨h.part.symm.trans h1, h.rstLow.symm.trans h2, h3⟩
  jobQueue := k.jobQueue.trans h.jobQueue
  current := k.current.trans h.current
  starts := k.starts.trans h.starts
  reports := k.reports.trans h.reports
  slot r := (k.slot r).trans (h.slot r)
  portState p := (k.portState p).trans (h.portState p)

/-- A word of the sweep (R105). -/
theorem sweepStep_sweepWord (h : exec .sweepWord s = .next t) :
    s.SweepStep t ∧ (t.store = s.store ∨ ∃ w, t.store = (s.landWrite w).store) := by
  obtain rfl := Host.Outcome.next.inj h
  split
  · split
    · exact ⟨s.sweepStep_refl, .inl rfl⟩
    · next n _ =>
      rcases s.inSlot_cases .engine (State.sweepStep n) with h | ⟨u, hu, h⟩ <;> rw [h]
      · exact ⟨s.sweepStep_refl, .inl rfl⟩
      · have hs := State.beside_grantSlot hu
        obtain ⟨k, hk⟩ := State.sweepStep_endSweep { u.zeroWord n with swept := u.swept + 1 }
        refine ⟨hs.sweepStep ⟨k.rstLow, k.supervisor, k.divider, k.part, k.jobQueue, k.current, k.starts, k.reports,
          k.slot, k.portState⟩, .inr ⟨⟨BitVec.ofNat 15 n, 0#32, 15#4⟩, hk.trans (hs.landWrite _).store⟩⟩
  · exact ⟨s.sweepStep_refl, .inl rfl⟩

theorem State.partReset_blank (s : State) (b : List Instr) (l : List Extent) : (s.partReset b l).blank where
  slot r := by simp [State.partReset, State.slot, State.reset]
  jobQueue := rfl
  current := rfl
  starts := rfl
  reports := rfl
  detached p := by cases p <;> rfl

theorem State.effect_takeTick (s : State) : ({ s with divider := 0 } : State).Effect s.takeTick :=
  (State.tableOp_foldl (fun t r => State.Continues.regionOp (State.continues_tickRegion t r)) { s with divider := 0 }).effect

end

/-! ### Every step -/

/-- What a step can do, by what it moves. -/
inductive State.Event (s t : State) : Prop
  | effect (h : s.Effect t)
  | landing (w : StoreWrite) (h : (s.landWrite w).Effect t)
  | clock (d : Nat) (hd : d < Config.tickPeriods) (hr : s.rstLow = false) (h : ({ s with divider := d } : State).Effect t)
  | sweep (h : s.SweepStep t) (hs : t.store = s.store ∨ ∃ w, t.store = (s.landWrite w).store)
  | cleared (h : t.blank) (hp : t.part = .starting) (hr : t.rstLow = true) (hv : t.supervisor = none)
      (hd : t.divider = 0) (hs : t.store = s.store ∨ t.store = [])
  | released (p : Port) (v : State) (hr : s.rstLow = true)
      (h : ({ s with rstLow := false, supervisor := some p } : State).SweepStep v) (hs : v.store = s.store)
      (ht : t = allPorts.foldl State.resume v)

theorem event_exec {c : Instr} {s t : State} (h : exec c s = .next t) : s.Event t := by
  have land : (s.Effect t ∨ ∃ w, (s.landWrite w).Effect t) → s.Event t := fun h =>
    h.elim .effect fun ⟨w, h⟩ => .landing w h
  cases c
  case postedWriteAccept p => exact .effect (Host.Outcome.next.inj h ▸ State.effect_acceptHeld s p)
  case postedWriteLanding => exact land (effect_postedWriteLanding h)
  case blockingWriteLanding => exact land (effect_blockingWriteLanding h)
  case blockingReadSlot => exact .effect (effect_blockingReadSlot h)
  case wipeWord => exact land (effect_wipeWord h)
  case digestWord => exact .effect (effect_digestWord h)
  case sweepWord => exact .sweep (sweepStep_sweepWord h).1 (sweepStep_sweepWord h).2
  case startupSweepEnd =>
    obtain rfl := Host.Outcome.next.inj h
    exact .sweep s.sweepStep_endSweep.1 (.inl s.sweepStep_endSweep.2)
  case fenceRequest => exact .effect (effect_fenceRequest h)
  case fenceCompletion => exact .effect (effect_fenceCompletion h)
  case drainEnd r => exact .effect (Host.Outcome.next.inj h ▸ (State.regionOp_decideDrain s r).effect)
  case leaseTick =>
    obtain rfl := Host.Outcome.next.inj h
    split
    · exact .effect (State.Effect.refl s)
    · next hr => exact .clock 0 (by decide) (by simpa using hr) s.effect_takeTick
  case leaseExpiry r => exact .effect (Host.Outcome.next.inj h ▸ State.Changes.effect (State.continues_expireRegion s r))
  case jobStart => exact .effect (effect_jobStart h)
  case wipeCompletion => exact .effect (effect_wipeCompletion h)
  case digestCompletion => exact .effect (effect_digestCompletion h)
  case portReset => exact .effect (effect_portReset h)
  case portResetRelease => exact .effect (effect_portResetRelease h)
  case warmReset =>
    obtain rfl := Host.Outcome.next.inj h
    split
    · exact .effect (State.Effect.refl s)
    · split <;> exact .cleared (s.partReset_blank _ _) rfl rfl rfl rfl (.inl rfl)
  case resetRelease b =>
    obtain rfl := Host.Outcome.next.inj h
    split
    · next hr =>
      obtain ⟨hv, hs⟩ := State.sweepStep_endSweep { s with rstLow := false, supervisor := some (.ofBits b) }
      exact .released (.ofBits b) _ hr hv hs rfl
    · exact .effect (State.Effect.refl s)
  case powerOn =>
    obtain rfl := Host.Outcome.next.inj h
    have hb := s.partReset_blank [] [⟨0, Config.storePages⟩]
    exact .cleared ⟨hb.slot, rfl, rfl, rfl, rfl, hb.detached⟩ rfl rfl rfl rfl (.inr rfl)
  case aperturePlacementWrite p n f v => exact .effect (effect_exec_host (by cases f <;> rfl) h)
  all_goals exact .effect (effect_exec_host rfl h)

theorem event_step {s t : State} (h : step s = .next t) : ∃ rest, ({ s with pending := rest } : State).Event t := by
  unfold step at h
  split at h
  · next hp =>
    obtain rfl := Host.Outcome.next.inj h
    refine ⟨s.pending, ?_⟩
    unfold State.refclkPeriod
    split
    · exact .effect (State.Effect.refl s)
    · next hr =>
      have hr : s.rstLow = false := by simpa using hr
      split
      · next hd => exact .clock (s.divider + 1) hd hr (State.Effect.refl _)
      · exact .clock 0 (by decide) hr s.effect_takeTick
  · next c rest _ => exact ⟨rest, event_exec h⟩

end Sys2Proof.Machine
end

section
/-! SUPPORT. The laws of the region table, of the part, of the jobs and of the store, kept by every step (O50, O52, O53,
O54, O57), and the two rules of the whole device that rest on the same sorting of the steps (O58, O59). -/

namespace Sys2Proof.Machine

variable {s t : State}

/-! ### The law of the part -/

/-- While the part is STARTING nothing is defined, queued or ATTACHED (R19, R104). -/
theorem State.partLaw.blank (h : s.partLaw) (hp : s.part = .starting) : s.blank :=
  let ⟨h1, h2, h3, h4, h5, h6⟩ := h.1 hp
  ⟨h1, h2, h3, h4, h5, h6⟩

theorem State.partLaw_of_blank (h : s.part = .starting → s.blank)
    (hr : s.rstLow = true → s.part = .starting ∧ s.supervisor = none ∧ s.divider = 0)
    (hv : s.rstLow = false → s.supervisor.isSome = true) (hd : s.divider < Config.tickPeriods) : s.partLaw :=
  ⟨fun hp => ⟨(h hp).slot, (h hp).jobQueue, (h hp).current, (h hp).starts, (h hp).reports, (h hp).detached⟩, hr, hv, hd⟩

theorem State.Effect.partLaw (e : s.Effect t) (h : s.partLaw) : t.partLaw := by
  have hf := e.frame
  refine State.partLaw_of_blank (fun hp => ?_) ?_ ?_ (hf.divider ▸ h.2.2.2)
  · have hs : s.part = .starting := hf.part ▸ hp
    exact (e.blank hs (h.blank hs)).blank (h.blank hs)
  · rw [hf.rstLow, hf.part, hf.supervisor, hf.divider]; exact h.2.1
  · rw [hf.rstLow, hf.supervisor]; exact h.2.2.1

theorem State.SweepStep.partLaw (e : s.SweepStep t) (h : s.partLaw) : t.partLaw := by
  refine State.partLaw_of_blank (fun hp => ?_) (fun hr => ?_) ?_ (e.divider ▸ h.2.2.2)
  · rcases e.part with hs | ⟨-, -, hs⟩
    · have hb := h.blank (hs.symm.trans hp)
      exact ⟨fun r => (e.slot r).trans (hb.slot r), e.jobQueue.trans hb.jobQueue, e.current.trans hb.current,
        e.starts.trans hb.starts, e.reports.trans hb.reports, fun p => (e.portState p).trans (hb.detached p)⟩
    · rw [hs] at hp; cases hp
  · rw [e.rstLow] at hr
    obtain ⟨h1, h2, h3⟩ := h.2.1 hr
    refine ⟨?_, e.supervisor.trans h2, e.divider.trans h3⟩
    rcases e.part with hs | ⟨-, hf, -⟩
    · exact hs.trans h1
    · rw [hr] at hf; cases hf
  · rw [e.rstLow, e.supervisor]; exact h.2.2.1

/-- RST_n rises with a supervisor sampled (R170). -/
theorem State.partLaw_released (h : s.partLaw) (p : Port) :
    ({ s with rstLow := false, supervisor := some p } : State).partLaw :=
  ⟨h.1, nofun, fun _ => rfl, h.2.2.2⟩

theorem State.Event.partLaw (e : s.Event t) (h : s.partLaw) : t.partLaw := by
  cases e with
  | effect e => exact e.partLaw h
  | landing w e => exact e.partLaw h
  | clock d hd hr e => exact e.partLaw ⟨h.1, fun h' => absurd (hr.symm.trans h') nofun, h.2.2.1, hd⟩
  | sweep e _ => exact e.partLaw h
  | cleared hb hp hr hv hd _ =>
    exact State.partLaw_of_blank (fun _ => hb) (fun _ => ⟨hp, hv, hd⟩) (fun h' => absurd (hr.symm.trans h') nofun)
      (hd ▸ by decide)
  | released p v _ e _ ht =>
    rw [ht]
    exact State.foldl_keeps (fun u q => (u.effect_resume q).partLaw) allPorts (e.partLaw (State.partLaw_released h p))

/-! ### The laws of the region table -/

/-- A step on the region table keeps these. -/
theorem State.SweepStep.tableStep (e : s.SweepStep t) : s.TableStep t :=
  State.tableStep_of_slots e.slot fun p hp => (e.portState p).symm.trans hp

/-- What every step on the region table keeps, every event keeps. -/
theorem State.Event.keeps {P : State → Prop} (hP : ∀ a b : State, a.TableStep b → P a → P b)
    (e : s.Event t) (h : P s) : P t := by
  have same : ∀ a : State, (∀ r, a.slot r = s.slot r) → (∀ p, a.port p = s.port p) → P a := fun a hs hp =>
    hP s a (State.tableStep_of_slots hs fun p => by rw [hp p]; exact id) h
  cases e with
  | effect e => exact hP _ _ e.table h
  | landing w e => exact hP _ _ e.table (same _ (fun _ => rfl) fun _ => rfl)
  | clock d _ _ e => exact hP _ _ e.table (same _ (fun _ => rfl) fun _ => rfl)
  | sweep e _ => exact hP _ _ e.tableStep h
  | cleared hb _ _ _ _ _ =>
    refine hP s t (.evolves (fun r k hk => ?_) fun p _ => .inr fun _ r k hk => ?_) h <;>
      (rw [hb.slot r] at hk; cases hk)
  | released p v _ e _ ht =>
    rw [ht]
    exact State.foldl_keeps (fun u q => hP _ _ (u.effect_resume q).table) allPorts
      (hP _ _ e.tableStep (same _ (fun _ => rfl) fun _ => rfl))

/-! ### The law of the jobs -/

theorem State.SweepStep.jobsLaw (e : s.SweepStep t) (hp : s.partLaw) (h : s.jobsLaw) : t.jobsLaw := by
  rw [State.jobsLaw_iff] at h ⊢
  obtain ⟨hE, hR⟩ := h
  refine ⟨fun ht hc => ?_, fun r => ?_⟩
  · rw [e.current] at hc
    rw [e.jobQueue]
    rcases e.part with hs | ⟨hs, -, -⟩
    · exact hE (hs.symm.trans ht) hc
    · exact (hp.blank hs).jobQueue
  · have : t.jobAt r = s.jobAt r := by simp only [State.jobAt, e.slot r]
    rw [this]
    exact (State.jobLawAt_congr e.jobQueue e.current e.starts e.reports r _).mpr (hR r)

/-- The laws that the keeping of the jobs' law leans on, all kept together. -/
structure State.JobsLaws (s : State) : Prop where
  table : s.tableLawful
  extents : s.extentsLaw
  jobs : s.jobsLaw

theorem State.Effect.jobsLaws (e : s.Effect t) (h : s.JobsLaws) : t.JobsLaws :=
  ⟨e.table.tableLawful h.table, e.table.extentsLaw h.extents, e.jobs h.table h.extents.filled h.jobs⟩

theorem State.Event.jobsLaw (e : s.Event t) (hp : s.partLaw) (h : s.JobsLaws) : t.jobsLaw := by
  cases e with
  | effect e => exact (e.jobsLaws h).jobs
  | landing w e => exact (e.jobsLaws ⟨h.table, h.extents, h.jobs⟩).jobs
  | clock d _ _ e => exact (e.jobsLaws ⟨h.table, h.extents, h.jobs⟩).jobs
  | sweep e _ => exact e.jobsLaw hp h.jobs
  | cleared hb _ _ _ _ _ => exact State.jobsLaw_of_empty hb.slot hb.jobQueue hb.current hb.starts hb.reports
  | released p v _ e _ ht =>
    have h0 : ({ s with rstLow := false, supervisor := some p } : State).JobsLaws := ⟨h.table, h.extents, h.jobs⟩
    have hv : v.JobsLaws := ⟨e.tableStep.tableLawful h0.table, e.tableStep.extentsLaw h0.extents,
      e.jobsLaw (State.partLaw_released hp p) h0.jobs⟩
    rw [ht]
    exact (State.foldl_keeps (fun u q => (u.effect_resume q).jobsLaws) allPorts hv).jobs

/-! ### The store -/

theorem State.Event.store_wf (e : s.Event t) (h : s.store.wf = true) : t.store.wf = true := by
  cases e with
  | effect e => rw [e.frame.store]; exact h
  | landing w e => rw [e.frame.store]; exact State.landWrite_wf w h
  | clock d _ _ e => rw [e.frame.store]; exact h
  | sweep _ hs =>
    rcases hs with hs | ⟨w, hs⟩ <;> rw [hs]
    exacts [h, State.landWrite_wf w h]
  | cleared _ _ _ _ _ hs =>
    rcases hs with hs | hs <;> rw [hs]
    exacts [h, rfl]
  | released p v _ _ hs ht =>
    rw [ht]
    exact State.foldl_keeps (P := fun u => u.store.wf = true)
      (fun u q hu => by rw [(u.effect_resume q).frame.store]; exact hu) allPorts (hs ▸ h)

/-! ### The obligations -/

/-- Settles O50: a step changes the store by a landing's word, or empties it. -/
theorem stepKeepsStoreForm : Obligations.StepKeepsStoreForm := fun _ _ h hs =>
  (event_step hs).elim fun _ e => e.store_wf h

/-- Settles O52: every region that a step leaves evolved from the one before it, or is one that DEFINE filled over free
pages. -/
theorem stepKeepsExtentsAndDigests : Obligations.StepKeepsExtentsAndDigests := fun _ _ hs =>
  (event_step hs).elim fun _ e =>
    ⟨fun h => e.keeps (fun _ _ step => step.extentsLaw) h, fun h => e.keeps (fun _ _ step => step.digestLaw) h⟩

/-- Settles O53. -/
theorem stepKeepsPartLaw : Obligations.StepKeepsPartLaw := fun _ _ h hs =>
  (event_step hs).elim fun _ e => e.partLaw h

/-- Settles O54: a step leaves every region lawful that was, and involves in one only ports that were, or that are
ATTACHED. -/
theorem stepKeepsRegionsLaw : Obligations.StepKeepsRegionsLaw := fun _ _ h hs =>
  (event_step hs).elim fun _ e => e.keeps (fun _ _ h => h.regionsLaw) h

/-- Settles O57: a job joins the engine's queue only for a region that has none, and each word, start and completion
moves its region's job field with the engine. -/
theorem stepKeepsJobsLaw : Obligations.StepKeepsJobsLaw := by
  rintro s t ⟨-, hr, hx, -, hp, -, -, -, -, hj⟩ hs
  obtain ⟨rest, e⟩ := event_step hs
  exact e.jobsLaw hp ⟨hr.1, hx, hj⟩

/-- Settles O59: RST_n rises only over a table with no region, and every other step is one on the region table. -/
theorem generationAdvancesByOne : Obligations.GenerationAdvancesByOne := by
  intro s t r g h hr hp hs hg hh
  obtain ⟨rest, e⟩ := event_step hs
  have same : h = g → h.generation = g.generation ∨ h.generation = g.generation + 1#16 := fun e => .inl (e ▸ rfl)
  cases e with
  | effect e => exact e.table.generation hr.1 hg hh
  | landing w e => exact e.table.generation hr.1 hg hh
  | clock d _ _ e => exact e.table.generation hr.1 hg hh
  | sweep e _ => exact same (Option.some.inj (hh.symm.trans ((e.slot r).trans hg)))
  | cleared hb _ _ _ _ _ => rw [hb.slot r] at hh; cases hh
  | released p v hl _ _ _ =>
    have hn : s.slot r = none := (hp.blank (hp.2.1 hl).1).slot r
    rw [hn] at hg; cases hg

/-- Settles O49. -/
theorem resetIsLawful : Obligations.ResetIsLawful := by
  have hs : ∀ r, State.reset.slot r = none := fun r => by simp [State.slot, State.reset]
  have hp : ∀ p, State.reset.port p = .atReset := fun p => by cases p <;> rfl
  have path : ∀ p, (State.reset.port p).pathEmpty := fun p => by rw [hp]; exact ⟨rfl, rfl, rfl, rfl⟩
  refine ⟨reset_store_wf, ⟨?_, ?_⟩, ⟨?_, ?_⟩, ?_, ?_, fun p => ?_, fun p => ?_, fun p => ⟨?_, ?_, ?_⟩, ⟨fun p r => ?_, fun p => ?_⟩, ?_⟩
  · intro r g h; rw [hs] at h; cases h
  · intro r g p h; rw [hs] at h; cases h
  · intro r g h; rw [hs] at h; cases h
  · intro r q g h page hr; rw [hs] at hr; cases hr
  · intro r g d h; rw [hs] at h; cases h
  · exact ⟨fun _ => ⟨hs, rfl, rfl, rfl, rfl, fun p => by rw [hp]; rfl⟩, fun _ => ⟨rfl, rfl, rfl⟩, nofun, by decide⟩
  · rw [hp]; exact ⟨by decide, by decide, by decide⟩
  · rw [hp]; exact ⟨by decide, nofun, nofun, nofun⟩
  · exact fun _ => ⟨by rw [hp]; rfl, path p⟩
  · exact fun _ => path p
  · intro c h; rw [hp] at h; cases h
  · have ha : State.reset.awaits r p = false := by simp only [State.awaits, hs]
    rw [ha, State.fencesInFlight, hp]
    rfl
  · rw [hp]; exact ⟨List.nodup_nil, nofun⟩
  · exact State.jobsLaw_of_empty hs rfl rfl rfl rfl

/-- Settles O58. -/
theorem storeChangesOnlyByLanding : Obligations.StoreChangesOnlyByLanding := by
  intro c s t h
  cases c
  case wipeWord => exact .inl rfl
  case sweepWord => exact .inr (.inl rfl)
  case powerOn => exact .inr (.inr (.inl rfl))
  case postedWriteLanding p => exact .inr (.inr (.inr (.inl ⟨p, rfl⟩)))
  case blockingWriteLanding p => exact .inr (.inr (.inr (.inr (.inl ⟨p, rfl⟩))))
  all_goals refine .inr (.inr (.inr (.inr (.inr ?_))))
  case postedWriteAccept p => obtain rfl := Host.Outcome.next.inj h; exact (s.effect_acceptHeld p).frame.store
  case blockingReadSlot => exact (effect_blockingReadSlot h).frame.store
  case digestWord => exact (effect_digestWord h).frame.store
  case startupSweepEnd => obtain rfl := Host.Outcome.next.inj h; exact s.sweepStep_endSweep.2
  case fenceRequest => exact (effect_fenceRequest h).frame.store
  case fenceCompletion => exact (effect_fenceCompletion h).frame.store
  case drainEnd r => obtain rfl := Host.Outcome.next.inj h; exact (State.regionEvent_decideDrain s r).store
  case leaseTick =>
    obtain rfl := Host.Outcome.next.inj h
    split
    exacts [rfl, s.effect_takeTick.frame.store]
  case leaseExpiry r => obtain rfl := Host.Outcome.next.inj h; exact (State.regionEvent_expireRegion s r).store
  case jobStart => exact (effect_jobStart h).frame.store
  case wipeCompletion => exact (effect_wipeCompletion h).frame.store
  case digestCompletion => exact (effect_digestCompletion h).frame.store
  case portReset => exact (effect_portReset h).frame.store
  case portResetRelease => exact (effect_portResetRelease h).frame.store
  case warmReset =>
    obtain rfl := Host.Outcome.next.inj h
    split
    · rfl
    · split <;> rfl
  case resetRelease b =>
    obtain rfl := Host.Outcome.next.inj h
    split
    · exact State.foldl_keeps (P := fun u => u.store = s.store) (fun u q hu => (u.effect_resume q).frame.store.trans hu)
        allPorts (State.sweepStep_endSweep _).2
    · rfl
  case aperturePlacementWrite p n f v => exact (effect_exec_host (by cases f <;> rfl) h).frame.store
  all_goals exact (effect_exec_host rfl h).frame.store

end Sys2Proof.Machine
end

section
/-! SUPPORT. A command word from its launch to its answer (R175), and the obligations on the commands' first checks, on
DIGEST, DEFINE, MODIFY and DELETE (O6, O13, O15, O16). -/

namespace Sys2Proof.Machine

/-! ### From the launch to the answer -/

/-- The command is the launch of this word with this decision on port `p`. -/
structure Launches (i : Instr) (p : Port) (word : Word) (decide : State → Decision) : Prop where
  wf : i.wf = true
  meaning : ∀ s, exec i s = hostAccess p i s (launch p word decide)

section
variable {i : Instr} {p : Port} {word : Word} {decide : State → Decision} {s : State}

/-- A launch and its answer are one trace in the port's window (R175). -/
theorem State.answered_launched (s : State) (p : Port) (word : Word) (code : BitVec 8) (value : Word) :
    (s.launched p word).answered p code value = s.replied p word code value := by
  simp [State.launched, State.answered, State.replied]

/-- What a taken command answers, where its decision changes the device from `s` to `t` beside the window. -/
theorem Launches.answers (h : Launches i p word decide) (ht : s.takes p) {t : State} {x : Result} {v : Word}
    (hd : decide (s.launched p word) = (t.launched p word, x, v)) : exec i s = .next (t.replied p word x.code v) := by
  rw [h.meaning, hostAccess_of_takes h.wf ht, launch_eq, hd, State.answered_launched]

/-- A refused command leaves its answer and nothing else (R12, R25). -/
theorem Launches.refused (h : Launches i p word decide) (ht : s.takes p) {x : Result}
    (hd : decide (s.launched p word) = refuse (s.launched p word) x) : exec i s = .next (s.replied p word x.code 0#32) :=
  h.answers ht hd

/-- The decision begins with the checks STARTING and NOT_ATTACHED (R12, R25, R154). -/
def beginsAttached (p : Port) (decide : State → Decision) : Prop := ∀ u, ∃ k, decide u = u.whenAttached p k

/-- The decision begins with the three checks of a port's region commands (R25). -/
def beginsOnRegion (p : Port) (r : RegionIx) (decide : State → Decision) : Prop := ∀ u, ∃ k, decide u = u.onRegion p r k

/-- The decision begins with the three checks of the supervisor's commands (R12). -/
def beginsAsSupervisor (p : Port) (decide : State → Decision) : Prop := ∀ u, ∃ k, decide u = u.asSupervisor p k

theorem beginsOnRegion.attached {r : RegionIx} (h : beginsOnRegion p r decide) : beginsAttached p decide := fun u =>
  let ⟨_, hk⟩ := h u
  ⟨_, hk⟩

theorem beginsAsSupervisor.attached (h : beginsAsSupervisor p decide) : beginsAttached p decide := fun u =>
  let ⟨_, hk⟩ := h u
  ⟨_, hk⟩

theorem State.onRegion_noRegion {r : RegionIx} {k : Region → Decision} (h1 : s.part = .ready)
    (h2 : (s.port p).state = .attached) (h3 : s.slot r = none) : s.onRegion p r k = refuse s .noRegion := by
  simp [State.onRegion, State.whenAttached_pass h1 h2, h3]

theorem State.asSupervisor_notSupervisor {k : Decision} (h1 : s.part = .ready) (h2 : (s.port p).state = .attached)
    (h3 : s.supervisor ≠ some p) : s.asSupervisor p k = refuse s .notSupervisor := by
  simp [State.asSupervisor, State.whenAttached_pass h1 h2, h3]

theorem Launches.starting (h : Launches i p word decide) (hb : beginsAttached p decide) (ht : s.takes p)
    (hs : s.part = .starting) : exec i s = .next (s.replied p word 0x13#8 0#32) := by
  obtain ⟨k, hk⟩ := hb (s.launched p word)
  exact h.refused ht (x := .starting) (hk.trans (State.whenAttached_starting hs))

theorem Launches.notAttached (h : Launches i p word decide) (hb : beginsAttached p decide) (ht : s.takes p)
    (hs : s.part = .ready) (hd : (s.port p).state = .detached) : exec i s = .next (s.replied p word 0x11#8 0#32) := by
  obtain ⟨k, hk⟩ := hb (s.launched p word)
  exact h.refused ht (x := .notAttached)
    (hk.trans (State.whenAttached_detached hs ((s.launched_port_state p p word).trans hd)))

theorem Launches.noRegion (h : Launches i p word decide) {r : RegionIx} (hb : beginsOnRegion p r decide)
    (ht : s.takes p) (hs : s.part = .ready) (ha : (s.port p).state = .attached) (hr : s.slot r = none) :
    exec i s = .next (s.replied p word 0x09#8 0#32) := by
  obtain ⟨k, hk⟩ := hb (s.launched p word)
  exact h.refused ht (x := .noRegion)
    (hk.trans (State.onRegion_noRegion hs ((s.launched_port_state p p word).trans ha) hr))

theorem Launches.notSupervisor (h : Launches i p word decide) (hb : beginsAsSupervisor p decide)
    (ht : s.takes p) (hs : s.part = .ready) (ha : (s.port p).state = .attached) (hv : s.supervisor ≠ some p) :
    exec i s = .next (s.replied p word 0x0D#8 0#32) := by
  obtain ⟨k, hk⟩ := hb (s.launched p word)
  exact h.refused ht (x := .notSupervisor)
    (hk.trans (State.asSupervisor_notSupervisor hs ((s.launched_port_state p p word).trans ha) hv))

end

section
variable (p : Port) (c : CmdFields)

theorem launches_detach : Launches (.detach p c) p (c.word 0x02#8) (decideDetach p c) := ⟨rfl, fun _ => rfl⟩
theorem launches_acquire : Launches (.acquire p c) p (c.word 0x10#8) (decideAcquire p c) := ⟨rfl, fun _ => rfl⟩
theorem launches_cancel : Launches (.cancel p c) p (c.word 0x11#8) (decideCancel p c) := ⟨rfl, fun _ => rfl⟩
theorem launches_release : Launches (.release p c) p (c.word 0x12#8) (decideRelease p c) := ⟨rfl, fun _ => rfl⟩
theorem launches_renew : Launches (.renew p c) p (c.word 0x13#8) (decideRenew p c) := ⟨rfl, fun _ => rfl⟩
theorem launches_makePrivate : Launches (.makePrivate p c) p (c.word 0x18#8) (decideMakePrivate p c) :=
  ⟨rfl, fun _ => rfl⟩
theorem launches_relinquish : Launches (.relinquish p c) p (c.word 0x19#8) (decideRelinquish p c) :=
  ⟨rfl, fun _ => rfl⟩
theorem launches_digest : Launches (.digest p c) p (c.word 0x1C#8) (decideDigest p c) := ⟨rfl, fun _ => rfl⟩
theorem launches_message : Launches (.message p c) p (c.word 0x20#8) (decideMessage p c) := ⟨rfl, fun _ => rfl⟩
theorem launches_define : Launches (.define p c) p (c.word 0x40#8) (decideDefine p c) := ⟨rfl, fun _ => rfl⟩
theorem launches_modify : Launches (.modify p c) p (c.word 0x41#8) (decideModify p c) := ⟨rfl, fun _ => rfl⟩
theorem launches_delete : Launches (.delete p c) p (c.word 0x42#8) (decideDelete p c) := ⟨rfl, fun _ => rfl⟩
theorem launches_reclaim : Launches (.reclaim p c) p (c.word 0x43#8) (decideReclaim p c) := ⟨rfl, fun _ => rfl⟩
theorem launches_evict : Launches (.evict p c) p (c.word 0x44#8) (decideEvict p c) := ⟨rfl, fun _ => rfl⟩

theorem begins_detach : beginsAttached p (decideDetach p c) := fun _ => ⟨_, by rw [decideDetach]⟩
theorem begins_message : beginsAttached p (decideMessage p c) := fun _ => ⟨_, by rw [decideMessage]⟩
theorem begins_acquire : beginsOnRegion p c.region (decideAcquire p c) := fun _ => ⟨_, by rw [decideAcquire]⟩
theorem begins_cancel : beginsOnRegion p c.region (decideCancel p c) := fun _ => ⟨_, by rw [decideCancel]⟩
theorem begins_release : beginsOnRegion p c.region (decideRelease p c) := fun _ => ⟨_, by rw [decideRelease]⟩
theorem begins_renew : beginsOnRegion p c.region (decideRenew p c) := fun _ => ⟨_, by rw [decideRenew]⟩
theorem begins_makePrivate : beginsOnRegion p c.region (decideMakePrivate p c) := fun _ => ⟨_, by rw [decideMakePrivate]⟩
theorem begins_relinquish : beginsOnRegion p c.region (decideRelinquish p c) := fun _ => ⟨_, by rw [decideRelinquish]⟩
theorem begins_digest : beginsOnRegion p c.region (decideDigest p c) := fun _ => ⟨_, by rw [decideDigest]⟩
theorem begins_define : beginsAsSupervisor p (decideDefine p c) := fun _ => ⟨_, by rw [decideDefine]⟩
theorem begins_modify : beginsAsSupervisor p (decideModify p c) := fun _ => ⟨_, by rw [decideModify]⟩
theorem begins_delete : beginsAsSupervisor p (decideDelete p c) := fun _ => ⟨_, by rw [decideDelete]⟩
theorem begins_reclaim : beginsAsSupervisor p (decideReclaim p c) := fun _ => ⟨_, by rw [decideReclaim]⟩
theorem begins_evict : beginsAsSupervisor p (decideEvict p c) := fun _ => ⟨_, by rw [decideEvict]⟩

end

/-! ### The first checks -/

/-- Settles O6: each command's decision begins with the checks of its kind. -/
theorem commandChecks : Obligations.CommandChecks := by
  intro s p c ht
  have both : ∀ {i : Instr} {w : Word} {d : State → Decision}, Launches i p w d → beginsAttached p d →
      (s.part = .starting → exec i s = .next (s.replied p w 0x13#8 0#32)) ∧
      (s.part = .ready → (s.port p).state = .detached → exec i s = .next (s.replied p w 0x11#8 0#32)) :=
    fun h hb => ⟨h.starting hb ht, h.notAttached hb ht⟩
  refine ⟨?_, fun hs ha => ⟨?_, ?_, ?_⟩⟩
  · simp only [List.forall_mem_cons]
    exact ⟨both (launches_detach p c) (begins_detach p c), both (launches_acquire p c) (begins_acquire p c).attached,
      both (launches_cancel p c) (begins_cancel p c).attached, both (launches_release p c) (begins_release p c).attached,
      both (launches_renew p c) (begins_renew p c).attached, both (launches_makePrivate p c) (begins_makePrivate p c).attached,
      both (launches_relinquish p c) (begins_relinquish p c).attached, both (launches_digest p c) (begins_digest p c).attached,
      both (launches_message p c) (begins_message p c), both (launches_define p c) (begins_define p c).attached,
      both (launches_modify p c) (begins_modify p c).attached, both (launches_delete p c) (begins_delete p c).attached,
      both (launches_reclaim p c) (begins_reclaim p c).attached, both (launches_evict p c) (begins_evict p c).attached, fun _ h => absurd h List.not_mem_nil⟩
  · simp only [List.forall_mem_cons]
    have refused : ∀ {i : Instr} {w : Word} {d : State → Decision}, Launches i p w d → beginsOnRegion p c.region d →
        s.slot c.region = none → exec i s = .next (s.replied p w 0x09#8 0#32) := fun h hb => h.noRegion hb ht hs ha
    exact ⟨refused (launches_acquire p c) (begins_acquire p c), refused (launches_cancel p c) (begins_cancel p c),
      refused (launches_release p c) (begins_release p c), refused (launches_renew p c) (begins_renew p c),
      refused (launches_makePrivate p c) (begins_makePrivate p c), refused (launches_relinquish p c) (begins_relinquish p c),
      refused (launches_digest p c) (begins_digest p c), fun _ h => absurd h List.not_mem_nil⟩
  · simp only [List.forall_mem_cons]
    have refused : ∀ {i : Instr} {w : Word} {d : State → Decision}, Launches i p w d → beginsAsSupervisor p d →
        s.supervisor ≠ some p → exec i s = .next (s.replied p w 0x0D#8 0#32) := fun h hb => h.notSupervisor hb ht hs ha
    exact ⟨refused (launches_define p c) (begins_define p c), refused (launches_modify p c) (begins_modify p c),
      refused (launches_delete p c) (begins_delete p c), refused (launches_reclaim p c) (begins_reclaim p c),
      refused (launches_evict p c) (begins_evict p c), fun _ h => absurd h List.not_mem_nil⟩
  · simp only [List.forall_mem_cons]
    have pass : ∀ (w : Word) (k : Decision), s.supervisor = some p → (s.launched p w).asSupervisor p k = k := fun w k hv =>
      State.asSupervisor_pass hs ((s.launched_port_state p p w).trans ha) hv
    refine ⟨fun hv hn => (launches_modify p c).refused ht (x := .noRegion) ?_,
      fun hv hn => (launches_delete p c).refused ht (x := .noRegion) ?_,
      fun hv hn => (launches_reclaim p c).refused ht (x := .noRegion) ?_, fun _ h => absurd h List.not_mem_nil⟩
    · rw [decideModify, pass _ _ hv, State.launched_slot, hn]
    · rw [decideDelete, pass _ _ hv, State.launched_slot, hn]
    · rw [decideReclaim, pass _ _ hv, State.launched_slot, hn]

/-! ### DIGEST -/

/-- A queued job and a change of a port's interface commute. -/
theorem State.withJob_launched (s : State) (r : RegionIx) (g : Region) (k : JobKind) (q : Option Port) (p : Port) (w : Word) :
    (s.launched p w).withJob r g k q = (s.withJob r g k q).launched p w := by
  by_cases h : s.engineFree
  · have h' : (s.launched p w).engineFree := h
    simp only [State.withJob, if_pos h, if_pos h']
    rfl
  · have h' : ¬ (s.launched p w).engineFree := h
    simp only [State.withJob, if_neg h, if_neg h']
    rfl

/-- Settles O13. -/
theorem digestDecided : Obligations.DigestDecided := by
  intro s p c g ⟨ht, hs, ha⟩ hg sharedHolder
  have pass : ∀ k, (s.launched p (c.word 0x1C#8)).onRegion p c.region k = k g := fun k =>
    State.onRegion_pass hs ((s.launched_port_state p p _).trans ha) hg
  have h := launches_digest p c
  refine ⟨fun hn => h.refused ht (x := .notHeld) ?_, fun hh hj => h.refused ht (x := .busy) ?_,
    fun hh hj => h.answers ht (x := .done) ?_⟩
  · rw [decideDigest, pass, if_pos hn]
  · rw [decideDigest, pass, if_neg (not_not.mpr hh), if_pos (Option.isSome_iff_ne_none.mpr hj)]
  · rw [decideDigest, pass, if_neg (not_not.mpr hh), if_neg (by simp [hj]),
      State.queueJob_of_slot (s := s.launched p (c.word 0x1C#8)) _ _ hg, State.withJob_launched]

/-! ### DEFINE, MODIFY and DELETE -/

@[simp] theorem State.launched_cargs (s : State) (p : Port) (w : Word) :
    ((s.launched p w).port p).carg0 = (s.port p).carg0 ∧ ((s.launched p w).port p).carg1 = (s.port p).carg1 ∧
      ((s.launched p w).port p).carg2 = (s.port p).carg2 := by
  rw [State.launched_port, if_pos rfl]
  exact ⟨rfl, rfl, rfl⟩

/-- Settles O15. -/
theorem defineDecided : Obligations.DefineDecided := by
  intro s p c ⟨⟨ht, hs, ha⟩, hv⟩ i e bad overlap a
  have pass : ∀ k, (s.launched p (c.word 0x40#8)).asSupervisor p k = k := fun k =>
    State.asSupervisor_pass hs ((s.launched_port_state p p _).trans ha) hv
  have h := launches_define p c
  obtain ⟨h0, h1, h2⟩ := s.launched_cargs p (c.word 0x40#8)
  have he : extentOf ((s.launched p (c.word 0x40#8)).port p).carg0 = e := by rw [h0]; rfl
  have hbad : e.bad = true ↔ bad := e.bad_iff
  have hover : (s.launched p (c.word 0x40#8)).overlapped e = true ↔ overlap := s.overlapped_iff e
  refine ⟨fun hn => h.refused ht (x := .inUse) ?_, fun hn hb => h.refused ht (x := .badExtent) ?_,
    fun hn hb ho => h.refused ht (x := .overlap) ?_, fun hn hb ho => h.answers ht (x := .done) ?_⟩
  · rw [decideDefine, pass]
    exact if_pos (Option.isSome_iff_ne_none.mpr hn)
  all_goals
    have free : ¬ ((s.launched p (c.word 0x40#8)).slot c.region).isSome = true := by simp [hn]
    rw [decideDefine, pass]
    dsimp only
    rw [if_neg free, he]
  · rw [if_pos (hbad.mpr hb)]
  · rw [if_neg (fun h => hb (hbad.mp h)), if_pos (hover.mpr ho)]
  · rw [if_neg (fun h => hb (hbad.mp h)), if_neg (fun h => ho (hover.mp h)), State.sendFence_allPorts, h1, h2]
    rfl

theorem Region.idle_iff (g : Region) : g.idle = true ↔ g.state = .free ∧ g.queue = [] ∧ g.job = none := by
  simp [Region.idle, and_assoc]

/-- Settles O16. -/
theorem modifyAndDeleteDecided : Obligations.ModifyAndDeleteDecided := by
  intro s p c g ⟨⟨ht, hs, ha⟩, hv⟩ hg i idle a
  have pass : ∀ w k, (s.launched p w).asSupervisor p k = k := fun w k =>
    State.asSupervisor_pass hs ((s.launched_port_state p p _).trans ha) hv
  obtain ⟨-, h1, h2⟩ := s.launched_cargs p (c.word 0x41#8)
  have hslot : ∀ w, (s.launched p w).slot c.region = some g := fun _ => hg
  refine ⟨fun hi => ?_, fun hi => ?_⟩
  · have hi : ¬ g.idle = true := fun h => hi (g.idle_iff.mp h)
    refine ⟨(launches_modify p c).refused ht (x := .busy) ?_, (launches_delete p c).refused ht (x := .busy) ?_⟩
    · rw [decideModify, pass, hslot]; exact if_neg hi
    · rw [decideDelete, pass, hslot]; exact if_neg hi
  · have hi : g.idle = true := g.idle_iff.mpr hi
    refine ⟨(launches_modify p c).answers ht (x := .done) ?_, (launches_delete p c).answers ht (x := .done) ?_⟩
    · rw [decideModify, pass, hslot]
      dsimp only
      rw [if_pos hi, h1, h2]
      rfl
    · rw [decideDelete, pass, hslot]
      dsimp only
      rw [if_pos hi]
      rfl

end Sys2Proof.Machine
end

section
/-! SUPPORT. The obligations on the access check, on the landings of a port's writes and its blocking read, and on the
words of a job (O28, O29, O30, O37). -/

namespace Sys2Proof.Machine

/-! ### The access check -/

/-- The region of a page is the one whose extent holds it: there is one at most (R3, R13). -/
theorem State.regionOfPage_iff {s : State} (h : s.extentsLaw) (page : Nat) (r : RegionIx) :
    s.regionOfPage page = some r ↔ ∃ g, s.slot r = some g ∧ g.extent.hasPage page = true := by
  have sound : ∀ q, s.regionOfPage page = some q → ∃ g, s.slot q = some g ∧ g.extent.hasPage page = true := by
    intro q hq
    have hq := List.find?_some hq
    cases hg : s.slot q with
    | none => simp [hg] at hq
    | some g => exact ⟨g, rfl, by simpa [hg] using hq⟩
  refine ⟨sound r, fun ⟨g, hg, hp⟩ => ?_⟩
  cases hf : s.regionOfPage page with
  | none =>
    have := List.find?_eq_none.mp hf r (mem_allRegions r)
    simp [hg, hp] at this
  | some q =>
    obtain ⟨k, hk, hkp⟩ := sound q hf
    by_contra hne
    have hne : q ≠ r := fun e => hne (e ▸ rfl)
    exact h.2 q r k g page hk hg hne ⟨hkp, hp⟩

/-- The check of an access to a word of a region is the region's (R3, R124). -/
theorem State.check_of_region {s : State} (h : s.extentsLaw) {w : StoreAddr} {r : RegionIx} {g : Region} (p : Port)
    (dir : Direction) (hg : s.slot r = some g) (hp : g.extent.hasPage (w.toNat / 64) = true) :
    s.check p dir w = g.check p dir := by
  have hr : s.regionOf w = some r := (State.regionOfPage_iff h _ r).mpr ⟨g, hg, hp⟩
  simp [State.check, hr, hg]

/-- Outside PRIVATE and WIPING the check looks at the port's hold (R124). -/
theorem Region.check_eq_checkHolder {g : Region} (p : Port) (dir : Direction) (hw : g.state ≠ .wiping)
    (ho : ∀ q, g.state ≠ .ownedBy q) : g.check p dir = g.checkHolder p dir := by
  unfold Region.check
  split
  case h_1 q hs => exact absurd hs (ho q)
  case h_2 hs => exact absurd hs hw
  all_goals rfl

/-- Settles O28. -/
theorem accessCheckTable : Obligations.AccessCheckTable := by
  intro s p dir w hx denied
  have hd : denied = dir.denied := by cases dir <;> rfl
  refine ⟨fun r => State.regionOfPage_iff hx _ r, fun hn => ?_, fun r g hg hp => ?_⟩
  · have : s.regionOf w = none := by
      cases hr : s.regionOf w with
      | none => rfl
      | some r =>
        obtain ⟨g, hg, hp⟩ := (State.regionOfPage_iff hx _ r).mp hr
        rw [Config.wordsPerPage, hn r g hg] at hp
        cases hp
    simp [State.check, this]
  · rw [State.check_of_region hx p dir hg hp, hd]
    refine ⟨fun hs => ?_, fun q hs hq => ?_, fun hs => ?_, fun hw ho => ?_⟩
    · simp [Region.check, hs]
    · simp [Region.check, hs, hq.symm]
    · simp [Region.check, hs]
    · rw [Region.check_eq_checkHolder p dir hw ho]
      refine ⟨fun x hx hm => ?_, fun x hx hm => ?_, fun hn => ?_⟩
      · simp [Region.checkHolder, hx, hm]
      · cases dir <;> simp [Region.checkHolder, hx, hm]
      · cases dir <;> simp [Region.checkHolder, hn, Direction.denied]

/-! ### Landings -/

/-- The marks left after a landing, each one lower (R63). -/
def marksLeft (l : List FenceMark) : List FenceMark :=
  (l.filter fun x => x.count ≠ 1).map fun x => { x with count := x.count - 1 }

/-- The completions a landing reports for port `p`, in list order (R63). -/
def marksDone (p : Port) (l : List FenceMark) : List (Port × RegionIx) :=
  (l.filter fun x => x.count = 1).map fun x => (p, x.region)

/-- A landing as every mark of the port counts it (R63). -/
theorem State.countLanding_eq (s : State) (p : Port) :
    s.countLanding p = { s.updPort p fun i => { i with fences := marksLeft i.fences } with
      completions := s.completions ++ marksDone p (s.port p).fences } := by
  have left : ∀ l : List FenceMark, (l.filter fun m => !m.last).map FenceMark.less = marksLeft l := by
    intro l
    unfold marksLeft
    congr 2
    funext m
    simp [FenceMark.last, Bool.beq_eq_decide_eq]
  have done : ∀ l : List FenceMark, (l.filter FenceMark.last).map (fun m => (p, m.region)) = marksDone p l := by
    intro l
    unfold marksDone
    congr 2
  simp only [State.countLanding, State.updPort, left, done]

/-- The state `u` of a store slot after the posted head of port `p` has landed in `m` and left `rest` queued, before
the held write's turn; the slot began with the marks and completions of `s` (R63, R129, R133). -/
def State.posted (s u : State) (p : Port) (rest : List StoreWrite) (m : Memory) : State :=
  { u.updPort p fun i => { i with posted := rest, fences := marksLeft i.fences } with
    store := m
    completions := s.completions ++ marksDone p (s.port p).fences }

theorem State.held_posted (s u : State) (p : Port) (rest : List StoreWrite) (m : Memory) :
    ((s.posted u p rest m).port p).held = (u.port p).held := by
  have h := congrArg PortIface.held
    (u.port_updPort_self p fun i => { i with posted := rest, fences := marksLeft i.fences })
  exact h

theorem State.acceptHeld_of_none {s : State} {p : Port} (h : (s.port p).held = none) : s.acceptHeld p = s := by
  simp [State.acceptHeld, h]

/-- What a store slot given to client `c` starts from: the priorities aged, and everything else as it was (R139). -/
theorem State.port_grantSlot {s u : State} {c : Client} (h : s.grantSlot c = some u) (p : Port) : u.port p = s.port p := by
  obtain ⟨-, rfl⟩ := State.grantSlot_some h
  rfl

/-- A posted head that lands: its word is stored, the marks count it, and the held write's turn follows (R129). -/
theorem exec_postedWriteLanding {s u : State} {p : Port} {w : StoreWrite} {rest : List StoreWrite}
    (hq : (s.port p).posted = w :: rest) (hu : s.grantSlot (.port p) = some u) :
    exec (.postedWriteLanding p) s =
      .next ((s.posted u p rest (s.store.writeWord w.addr w.be w.data)).acceptHeld p) := by
  have hup := State.port_grantSlot hu p
  have hstore : u.store = s.store := (State.beside_grantSlot hu).store
  have hcomp : u.completions = s.completions := by obtain ⟨-, rfl⟩ := State.grantSlot_some hu; rfl
  have hne : (s.port p).posted.isEmpty = false := by simp [hq]
  have hpq : (u.port p).posted = w :: rest := hup.symm ▸ hq
  show Host.Outcome.next _ = _
  rw [hne, if_neg Bool.false_ne_true, State.inSlot_granted _ hu, State.landPosted, hpq]
  dsimp only
  rw [State.countLanding_eq]
  simp only [State.posted, State.port_updPort_self, State.updPort_updPort, State.port_landWrite, hup, ← hstore, ← hcomp]
  rfl

/-- Settles O29: the landing is the stored word, the marks counted, and then the held write's turn. -/
theorem postedHeadLands : Obligations.PostedHeadLands := by
  intro s u p w rest hs hq hu
  refine ⟨_, s.store.writeWord w.addr w.be w.data, exec_postedWriteLanding hq hu, State.store_acceptHeld _ p,
    fun a => Memory.readByte_writeWord w.addr w.be w.data a hs, fun hn => ?_, fun _ => rfl⟩
  refine State.acceptHeld_of_none ?_
  rw [State.held_posted, State.port_grantSlot hu, hn]

/-- Settles O30. -/
theorem blockingAccessPerformed : Obligations.BlockingAccessPerformed := by
  intro s u p hs hq hu
  have hup := State.port_grantSlot hu p
  have hstore : u.store = s.store := (State.beside_grantSlot hu).store
  have hcomp : u.completions = s.completions := by obtain ⟨-, rfl⟩ := State.grantSlot_some hu; rfl
  have he : (s.port p).posted.isEmpty = true := by simp [hq]
  refine ⟨fun w hw => ⟨_, s.store.writeWord w.addr w.be w.data, ?_,
    fun a => Memory.readByte_writeWord w.addr w.be w.data a hs, rfl⟩, fun w hw => ?_⟩
  · show Host.Outcome.next _ = _
    rw [he, if_pos rfl, hw]
    dsimp only
    rw [State.inSlot_granted _ hu, State.landBlocking, State.countLanding_eq]
    simp only [State.port_updPort_self, State.updPort_updPort, State.port_landWrite, hup, ← hstore, ← hcomp]
    rfl
  · show Host.Outcome.next _ = _
    rw [he, if_pos rfl, hw]
    dsimp only
    rw [State.inSlot_granted _ hu, State.readBlocking, hstore]
    rfl

/-! ### The words of a job -/

/-- The engine has taken `j` in progress and reported its start; `rest` is left in the queue (R95). -/
def State.begins (u : State) (j : Job) (rest : List Job) (g : Region) : State :=
  { u with jobQueue := rest, current := some ⟨j, g.extent, 0, 0xFFFFFFFF#32⟩, starts := u.starts ++ [j.region] }

/-- The lock engine has taken the start of region `r`'s job, with `rest` still reported (R10, R95). -/
def State.startTakenOf (u : State) (r : RegionIx) (rest : List RegionIx) (g : Region) : State :=
  { u.setSlot r (some { g with job := g.job.map fun m => { m with running := true } }) with starts := rest }

section
variable {s : State}

theorem State.takeStart_of_slot {r : RegionIx} {rest : List RegionIx} {g : Region} (h : s.starts = r :: rest)
    (hg : s.slot r = some g) : s.takeStart = s.startTakenOf r rest g := by
  simp only [State.takeStart, h, State.updRegion, hg]
  rfl

theorem State.takeStart_of_nil (h : s.starts = []) : s.takeStart = s := by simp [State.takeStart, h]

theorem State.startHead_of_slot {j : Job} {rest : List Job} {g : Region} (hp : s.part = .ready) (hc : s.current = none)
    (hq : s.jobQueue = j :: rest) (hg : s.slot j.region = some g) : s.startHead = s.begins j rest g := by
  have hi : s.engineIdle = true := s.engineIdle_iff.mpr ⟨hp, hc⟩
  simp [State.startHead, hq, hi, State.startJob_of_slot rest hg, State.begins, crcStart]

theorem State.startHead_of_nil (hq : s.jobQueue = []) : s.startHead = s := by simp [State.startHead, hq]

/-- A job in progress leaves the queue alone. -/
theorem State.startHead_of_current {x : Progress} (hc : s.current = some x) : s.startHead = s :=
  State.startHead_of_engineLaw fun _ h => by rw [hc] at h; cases h

/-- With an empty queue nothing starts after a job's last word, if no start stood reported or the engine is IDLE. -/
theorem State.startNext_of_nil (hq : s.jobQueue = []) : s.startNext = s := by
  unfold State.startNext
  rw [State.startHead_of_nil hq]
  split
  · next h => exact State.takeStart_of_nil (by simpa using h)
  · rfl

/-- After a job's last word the next head starts; its start is taken at once if none stood before it (R94, R95). -/
theorem State.startNext_of_slot {j : Job} {rest : List Job} {g : Region} (hp : s.part = .ready) (hc : s.current = none)
    (hq : s.jobQueue = j :: rest) (hg : s.slot j.region = some g) :
    (s.starts = [] → s.startNext = (s.begins j rest g).startTakenOf j.region [] g) ∧
    (s.starts ≠ [] → s.startNext = s.begins j rest g) := by
  unfold State.startNext
  rw [State.startHead_of_slot hp hc hq hg]
  constructor
  · intro hs
    rw [if_pos (by simp [hs])]
    exact State.takeStart_of_slot (s := s.begins j rest g) (by simp [State.begins, hs]) hg
  · intro hs
    rw [if_neg (by simpa using hs)]

end

section
variable {s u : State} {x : Progress}

/-- In a slot of the engine a WIPE writes its next word and goes on (R95, R96). -/
theorem exec_wipeWord (hc : s.current = some x) (hk : x.job.kind = .wipe) (hu : s.grantSlot .engine = some u) :
    exec .wipeWord s = .next ((u.zeroWord (x.extent.wordAt x.done)).advanceJob x) := by
  show Host.Outcome.next _ = _
  rw [hc]
  dsimp only
  rw [hk]
  dsimp only
  rw [State.inSlot_granted _ hu, State.wipeStep]

/-- In a slot of the engine a DIGEST reads its next word and goes on (R95, R98). -/
theorem exec_digestWord (hc : s.current = some x) (hk : x.job.kind = .digest) (hu : s.grantSlot .engine = some u) :
    exec .digestWord s = .next (u.advanceJob
      { x with crc := crcWord x.crc (u.store.readWord (BitVec.ofNat 15 (x.extent.wordAt x.done))) }) := by
  show Host.Outcome.next _ = _
  rw [hc]
  dsimp only
  rw [hk]
  dsimp only
  rw [State.inSlot_granted _ hu, State.digestStep]

/-- The state of a slot with the last word of a job done, the store then `m` and the reports then `l` (R94). -/
def State.afterLast (u : State) (m : Memory) (l : List Report) : State :=
  { u with store := m, current := none, reports := l }

theorem State.advanceJob_next (u : State) {x : Progress} (h : x.done + 1 < x.extent.count * 64) :
    u.advanceJob x = { u with current := some { x with done := x.done + 1 } } := if_pos h

theorem State.advanceJob_last (u : State) {x : Progress} (h : x.extent.count * 64 ≤ x.done + 1) :
    u.advanceJob x = (u.afterLast u.store (u.reports ++ [x.report])).startNext := if_neg (Nat.not_lt.mpr h)

end

/-- A word of the store is its four bytes, lane 3 first (R1). -/
theorem Memory.readWord_ofNat (m : Memory) {n : Nat} (hn : n < 32768) :
    m.readWord (BitVec.ofNat 15 n) =
      m.readByte (4 * n + 3) ++ m.readByte (4 * n + 2) ++ m.readByte (4 * n + 1) ++ m.readByte (4 * n) := by
  have h : (BitVec.ofNat 15 n).toNat = n := by simpa using Nat.mod_eq_of_lt hn
  simp only [Memory.readWord, byteAddr, h, Nat.add_zero]

/-- Settles O37: the start of the head that JOB_START finds, then a word of the job in progress, which is the last one
of the extent or not. -/
theorem jobCarriedOut : Obligations.JobCarriedOut := by
  intro s begins taken
  refine ⟨fun hE => ⟨fun r rest g hs hg => ?_, fun hs => ?_⟩, fun j rest g hp hc hq hg => ?_, ?_⟩
  · show Host.Outcome.next _ = _
    rw [State.startHead_of_engineLaw hE, State.takeStart_of_slot hs hg]
    rfl
  · show Host.Outcome.next _ = _
    rw [State.startHead_takeStart_of_nothing hE hs]
  · show Host.Outcome.next _ = Host.Outcome.next _
    have : (s.begins j rest g).startHead = s.begins j rest g := State.startHead_of_current rfl
    rw [State.startHead_of_slot hp hc hq hg]
    exact congrArg (fun v : State => Host.Outcome.next v.takeStart) this.symm
  · intro x u hs hc hu hlt n word ends
    have hstore : u.store = s.store := (State.beside_grantSlot hu).store
    have hword : u.store.readWord (BitVec.ofNat 15 (x.extent.wordAt x.done)) = word := by
      rw [hstore]
      exact s.store.readWord_ofNat hlt
    obtain ⟨hpart, hqueue, hstarts, hreports, hslot⟩ : u.part = s.part ∧ u.jobQueue = s.jobQueue ∧
        u.starts = s.starts ∧ u.reports = s.reports ∧ u.slots = s.slots := by
      obtain ⟨-, rfl⟩ := State.grantSlot_some hu
      exact ⟨rfl, rfl, rfl, rfl, rfl⟩
    have last : ∀ (c : Instr) (m : Memory) (l : List Report), exec c s = .next (u.afterLast m l).startNext →
        ends c (u.afterLast m l) := by
      intro c m l h
      refine ⟨fun hq => h.trans (congrArg _ (State.startNext_of_nil (hqueue.trans hq))), fun j rest g hp hq hg => ?_⟩
      have hg : (u.afterLast m l).slot j.region = some g := (congrArg (fun l => l[j.region]) hslot).trans hg
      obtain ⟨none, some⟩ := State.startNext_of_slot (s := u.afterLast m l) (hpart.trans hp) rfl (hqueue.trans hq) hg
      exact ⟨fun hn => h.trans (congrArg _ (none (hstarts.trans hn))),
        fun hn => h.trans (congrArg _ (some (hstarts.trans_ne hn)))⟩
    refine ⟨fun hk => ⟨(u.zeroWord n).store, fun a => ?_, fun h => ?_, fun h => last _ _ _ ?_⟩,
      fun hk => ⟨fun h => ?_, fun h => last _ u.store _ ?_⟩⟩
    · rw [State.readByte_zeroWord hlt a (hstore ▸ hs), hstore]
    · rw [exec_wipeWord hc hk hu, State.advanceJob_next _ h]
      rfl
    · rw [exec_wipeWord hc hk hu, State.advanceJob_last _ h, Progress.report, hk, ← hreports]
      rfl
    · rw [exec_digestWord hc hk hu, hword]
      exact congrArg _ (u.advanceJob_next (x := { x with crc := crcWord x.crc word }) h)
    · rw [exec_digestWord hc hk hu, hword, ← hreports]
      refine congrArg _ ((u.advanceJob_last (x := { x with crc := crcWord x.crc word }) h).trans ?_)
      rw [Progress.report]
      dsimp only
      rw [hk]
      rfl

end Sys2Proof.Machine
end

section
/-! SUPPORT. The obligation on the window's reads (O23): a register word as a concatenation of its fields, then each
offset by its row of the map (chapter 11). -/

namespace Sys2Proof.Machine

/-! ### A register word and its fields -/

theorem field_self (x : Word) : field x.toNat 0 = x := by simp [field]

@[simp] theorem field_zero (k : Nat) : field 0 k = 0#32 := by simp [field]

@[simp] theorem flag_false (k : Nat) : flag false k = 0#32 := field_zero k

theorem flag_eq (b : Bool) (k : Nat) : flag b k = field (BitVec.ofBool b).toNat k := by cases b <;> rfl

/-- A number that fits in `w` bits is a field of that width. -/
theorem field_ofNat {n w : Nat} (h : n < 2 ^ w) (k : Nat) : field (BitVec.ofNat w n).toNat k = field n k := by
  rw [BitVec.toNat_ofNat, Nat.mod_eq_of_lt h]

/-- The fields of a concatenation: the low part where it stands, the high part above it. -/
theorem field_append {v w : Nat} (x : BitVec v) (y : BitVec w) (k : Nat) :
    field (x ++ y).toNat k = field x.toNat (w + k) ||| field y.toNat k := by
  simp [field, ← Nat.shiftLeft_eq, Nat.shiftLeft_or_distrib, Nat.shiftLeft_add, BitVec.ofNat_or]

/-- A field that begins at bit 0 is its value, extended. -/
theorem field_toNat_zero {w : Nat} (x : BitVec w) : field x.toNat 0 = x.zeroExtend 32 := by
  simp [field]

/-- The bits of a field. -/
theorem getLsbD_field (n k i : Nat) :
    (field n k).getLsbD i = (decide (i < 32) && (decide (k ≤ i) && n.testBit (i - k))) := by
  simp only [field, BitVec.getLsbD_ofNat, Nat.testBit_mul_two_pow]

theorem getLsbD_field_above {n k i : Nat} (h : i < k) : (field n k).getLsbD i = false := by
  rw [getLsbD_field, decide_eq_false (Nat.not_le.mpr h), Bool.false_and, Bool.and_false]

theorem getLsbD_field_below {n k i : Nat} (h : n < 2 ^ (i - k)) : (field n k).getLsbD i = false := by
  rw [getLsbD_field, Nat.testBit_lt_two_pow h, Bool.and_false, Bool.and_false]

theorem getLsbD_flag_self {b : Bool} {k : Nat} (h : k < 32) : (flag b k).getLsbD k = b := by
  rw [flag, getLsbD_field, decide_eq_true h, decide_eq_true k.le_refl, Nat.sub_self]
  cases b <;> rfl

theorem getLsbD_flag_ne {b : Bool} {k i : Nat} (h : i ≠ k) : (flag b k).getLsbD i = false := by
  rcases Nat.lt_or_gt_of_ne h with h | h
  · exact getLsbD_field_above h
  · have : 2 ^ 1 ≤ 2 ^ (i - k) := Nat.pow_le_pow_right (by decide) (by omega)
    exact getLsbD_field_below (Nat.lt_of_lt_of_le b.toNat_lt this)

/-- The bits of a word where a field stands are the field. -/
theorem extract_field {n w k : Nat} (hk : k + w ≤ 32) : (field n k).extractLsb' k w = BitVec.ofNat w n := by
  refine BitVec.eq_of_getLsbD_eq fun i hi => ?_
  have : k + i < 32 := by omega
  rw [BitVec.getLsbD_extractLsb', getLsbD_field, BitVec.getLsbD_ofNat, decide_eq_true this,
    decide_eq_true (Nat.le_add_right k i), Nat.add_sub_cancel_left, Bool.true_and, Bool.true_and]

theorem extract_field_above {n k a w : Nat} (h : a + w ≤ k) : (field n k).extractLsb' a w = 0#w := by
  refine BitVec.eq_of_getLsbD_eq fun i hi => ?_
  rw [BitVec.getLsbD_extractLsb', getLsbD_field_above (by omega), Bool.and_false, BitVec.getLsbD_zero]

theorem extract_field_below {n k a w : Nat} (h : n < 2 ^ (a - k)) : (field n k).extractLsb' a w = 0#w := by
  refine BitVec.eq_of_getLsbD_eq fun i hi => ?_
  have : n < 2 ^ (a + i - k) := Nat.lt_of_lt_of_le h (Nat.pow_le_pow_right (by decide) (by omega))
  rw [BitVec.getLsbD_extractLsb', getLsbD_field_below this, Bool.and_false, BitVec.getLsbD_zero]

theorem extract_flag_off {b : Bool} {k a w : Nat} (h : k < a ∨ a + w ≤ k) : (flag b k).extractLsb' a w = 0#w := by
  refine BitVec.eq_of_getLsbD_eq fun i hi => ?_
  rw [BitVec.getLsbD_extractLsb', getLsbD_flag_ne (by omega), Bool.and_false, BitVec.getLsbD_zero]

/-! ### The words of the window as concatenations -/

/-- NHEAD0 from its kind, region, mode, taint, reason and fault fields (11.6). -/
def headWord0 (kind : BitVec 4) (r : Nat) (mode : BitVec 2) (taint : Bool) (reason : BitVec 2) (fault : BitVec 4) : Word :=
  0#4 ++ fault ++ 0#2 ++ reason ++ 0#1 ++ BitVec.ofBool taint ++ mode ++ 0#3 ++ BitVec.ofNat 5 r ++ 0#4 ++ kind

theorem headWord0_eq (kind : BitVec 4) {r : Nat} (hr : r < 2 ^ 5) (mode : BitVec 2) (taint : Bool) (reason : BitVec 2)
    (fault : BitVec 4) : headWord0 kind r mode taint reason fault =
      field kind.toNat 0 ||| field r 8 ||| field mode.toNat 16 ||| flag taint 18 ||| field reason.toNat 20 |||
        field fault.toNat 24 := by
  refine (field_self _).symm.trans ((field_append _ _ 0).trans ?_)
  simp only [field_append, field_ofNat hr, ← flag_eq, BitVec.toNat_zero, field_zero, BitVec.zero_or, BitVec.or_zero]
  ac_rfl

/-- NHEAD0 of a record of region `r`, by kind (11.6). -/
theorem Record.word0_eq (x : Record) : x.word0 = match x with
    | .granted r m _ t => headWord0 1#4 r.val (BitVec.ofNat 2 m.bit) t 0#2 0#4
    | .revoked r h w => headWord0 2#4 r.val (BitVec.ofNat 2 h.code) false (BitVec.ofNat 2 w.code) 0#4
    | .dropped r => headWord0 3#4 r.val 0#2 false 2#2 0#4
    | .leaseWarning r _ => headWord0 4#4 r.val 0#2 false 0#2 0#4
    | .digestDone r _ _ => headWord0 5#4 r.val 0#2 false 0#2 0#4
    | .wipeDone r _ => headWord0 6#4 r.val 0#2 false 0#2 0#4
    | .fault k => headWord0 7#4 0 0#2 false 0#2 (BitVec.ofNat 4 k.code)
    | .message _ _ => headWord0 8#4 0 0#2 false 0#2 0#4
    | .overflow _ => headWord0 15#4 0 0#2 false 0#2 0#4 := by
  have mode : ∀ m : Mode, (BitVec.ofNat 2 m.bit).toNat = m.bit := fun m => by cases m <;> rfl
  have held : ∀ h : RightHeld, (BitVec.ofNat 2 h.code).toNat = h.code := fun h => by cases h <;> rfl
  have reason : ∀ w : RevokeReason, (BitVec.ofNat 2 w.code).toNat = w.code := fun w => by cases w <;> rfl
  have fault : ∀ k : FaultKind, (BitVec.ofNat 4 k.code).toNat = k.code := fun k => by cases k <;> rfl
  cases x with
  | granted r m g t =>
    dsimp only
    rw [headWord0_eq _ r.isLt, mode]
    simp [Record.word0, Record.kind, BitVec.or_assoc]
  | revoked r h w =>
    dsimp only
    rw [headWord0_eq _ r.isLt, held, reason]
    simp [Record.word0, Record.kind, BitVec.or_assoc]
  | fault k =>
    dsimp only
    rw [headWord0_eq _ (Nat.two_pow_pos 5), fault]
    simp [Record.word0, Record.kind]
  | message q v | overflow n =>
    dsimp only
    rw [headWord0_eq _ (Nat.two_pow_pos 5)]
    simp [Record.word0, Record.kind]
  | dropped r | leaseWarning r n | digestDone r g v | wipeDone r g =>
    dsimp only
    rw [headWord0_eq _ r.isLt]
    simp [Record.word0, Record.kind, RevokeReason.code, BitVec.or_assoc]

/-- FREC0 of a fault record: its count, region, flags and kind (11.7). -/
theorem FaultRecord.word0_eq (f : FaultRecord) :
    f.word0 = 0#8 ++ f.count ++ 0#3 ++ BitVec.ofNat 5 (f.region.elim 0 Fin.val) ++ 0#1 ++ BitVec.ofBool f.region.isSome ++
      BitVec.ofBool f.storeAddr.isSome ++ BitVec.ofBool (decide (f.dir = .write)) ++ BitVec.ofNat 4 f.kind.code := by
  have hr : f.region.elim 0 Fin.val < 2 ^ 5 := by cases f.region with
    | none => exact Nat.two_pow_pos 5
    | some r => exact r.isLt
  have hk : f.kind.code < 2 ^ 4 := by cases f.kind <;> decide
  refine Eq.symm ((field_self _).symm.trans ((field_append _ _ 0).trans ?_))
  simp only [field_append, field_ofNat hr, field_ofNat hk, ← flag_eq, BitVec.toNat_zero, field_zero, BitVec.zero_or,
    BitVec.or_zero, FaultRecord.word0]
  ac_rfl

/-- NMASK: the mask of kinds 1 to 8 (11.6). -/
theorem PortIface.nmaskWord_eq (i : PortIface) : i.nmaskWord = 0#23 ++ i.kindMask ++ 0#1 := by
  refine Eq.symm ((field_self _).symm.trans ((field_append _ _ 0).trans ?_))
  simp only [field_append, BitVec.toNat_zero, field_zero, BitVec.zero_or, BitVec.or_zero, PortIface.nmaskWord]

/-- The view page's word of an aperture entry (11.8). -/
theorem Aperture.viewWord_eq (a : Aperture) : a.word 0 = 0#16 ++ a.viewPage ++ 0#8 := by
  refine Eq.symm ((field_self _).symm.trans ((field_append _ _ 0).trans ?_))
  simp only [field_append, BitVec.toNat_zero, field_zero, BitVec.zero_or, BitVec.or_zero, Aperture.word, if_pos]

/-- ATTR: the four flags of an aperture entry (11.8). -/
theorem Aperture.attrWord_eq (a : Aperture) : a.attrWord =
    0#28 ++ BitVec.ofBool a.posted ++ BitVec.ofBool a.writeOk ++ BitVec.ofBool a.readOk ++ BitVec.ofBool a.enabled := by
  refine Eq.symm ((field_self _).symm.trans ((field_append _ _ 0).trans ?_))
  simp only [field_append, ← flag_eq, BitVec.toNat_zero, field_zero, BitVec.zero_or, Aperture.attrWord]
  ac_rfl

/-- SARB: the five initial priorities (11.10). -/
theorem State.sarbWord_eq (s : State) : s.sarbWord = 0#12 ++ s.initialPrio.engine ++ s.initialPrio.ports.p3 ++
    s.initialPrio.ports.p2 ++ s.initialPrio.ports.p1 ++ s.initialPrio.ports.p0 := by
  refine Eq.symm ((field_self _).symm.trans ((field_append _ _ 0).trans ?_))
  simp only [field_append, BitVec.toNat_zero, field_zero, BitVec.zero_or, State.sarbWord, Priorities.of, PerPort.get]
  ac_rfl

/-- The numbers of a state word fit their fields: the state and job codes, the waiters of a run and the proprietor
(11.9). -/
structure Region.Fits (g : Region) : Prop where
  state : g.state.code < 2 ^ 3
  waiters : g.queue.length < 2 ^ 3
  proprietor : g.state.proprietor.elim 0 portNumber < 2 ^ 2
  job : jobCode g.job < 2 ^ 3

theorem Region.fits {g : Region} (h : g.queue.length ≤ 4) : g.Fits where
  state := by cases g.state <;> exact of_decide_eq_true rfl
  waiters := Nat.lt_of_le_of_lt h (by decide)
  proprietor := by rcases g.state.proprietor with _ | _ | _ <;> exact of_decide_eq_true rfl
  job := by rcases g.job with _ | ⟨_ | _, _ | _, _⟩ <;> exact of_decide_eq_true rfl

/-- A one-bit flag of the state word is where the map puts it, and the gaps between fields read 0 (11.9). -/
theorem Region.Fits.bits {g : Region} (h : g.Fits) :
    g.stateWord.getLsbD 3 = false ∧ g.stateWord.getLsbD 4 = g.holders.p0.isSome ∧
    g.stateWord.getLsbD 5 = g.holders.p1.isSome ∧ g.stateWord.getLsbD 6 = g.holders.p2.isSome ∧
    g.stateWord.getLsbD 7 = g.holders.p3.isSome ∧ g.stateWord.getLsbD 8 = g.exclusiveFlag ∧
    g.stateWord.getLsbD 15 = false ∧ g.stateWord.getLsbD 20 = g.taint := by
  obtain ⟨hs, hw, hp, hj⟩ := h
  simp (disch := omega) only [Region.stateWord, BitVec.getLsbD_or, getLsbD_flag_self, getLsbD_flag_ne,
    getLsbD_field_above, getLsbD_field_below, Bool.or_false, Bool.false_or, and_self]

/-- The numbers of the state word are where the map puts them (11.9). -/
theorem Region.Fits.numbers {g : Region} (h : g.Fits) :
    (g.stateWord.extractLsb' 0 3).toNat = g.state.code ∧ g.stateWord.extractLsb' 9 3 = 0#3 ∧
    (g.stateWord.extractLsb' 12 3).toNat = g.queue.length ∧
    (g.stateWord.extractLsb' 16 2).toNat = g.state.proprietor.elim 0 portNumber ∧
    g.stateWord.extractLsb' 18 2 = 0#2 ∧ g.stateWord.extractLsb' 21 3 = 0#3 ∧
    (g.stateWord.extractLsb' 24 3).toNat = jobCode g.job ∧ g.stateWord.extractLsb' 27 5 = 0#5 := by
  obtain ⟨hs, hw, hp, hj⟩ := h
  simp (disch := omega) only [Region.stateWord, BitVec.extractLsb'_or, extract_field, extract_field_above,
    extract_field_below, extract_flag_off, BitVec.or_zero, BitVec.zero_or, BitVec.toNat_ofNat, Nat.mod_eq_of_lt, and_self]

/-- The exclusive flag is up exactly with an EXCLUSIVE hold (R18). -/
theorem Region.exclusiveFlag_iff {g : Region} :
    g.exclusiveFlag = true ↔ ∃ q h, g.holders.get q = some h ∧ h.mode = .exclusive := by
  simp only [Region.exclusiveFlag, List.any_eq_true, mem_allPorts, true_and, Region.exclusiveBy_iff]

/-- Words 2 and 3 of a region view entry with a digest: the valid bit beside the tag, and the value (11.9). -/
theorem Region.digestWord_eq {g : Region} {d : DigestTag} (h : g.digest = some d) :
    g.viewWord 2 = 0x80000000#32 ||| d.tag.zeroExtend 32 ∧ g.viewWord 3 = d.value := by
  simp only [Region.viewWord, h, Option.elim, ← field_toNat_zero]
  exact ⟨rfl, rfl⟩

/-! ### What each offset reads -/

section
variable (s : State) (p : Port)

/-- A read in the aperture block is a word of one entry (11.8). -/
theorem State.windowRead_aperture (n : ApertureIx) {k : Nat} (hk : k < 4) :
    s.windowRead p (BitVec.ofNat 8 (0x20 + 4 * n.val + k)) = ((s.port p).aperture n).word k := by
  have hn : (BitVec.ofNat 8 (0x20 + 4 * n.val + k)).toNat = 0x20 + 4 * n.val + k := by
    rw [BitVec.toNat_ofNat]
    omega
  have entry : ((BitVec.ofNat 8 (0x20 + 4 * n.val + k)).extractLsb' 2 3).toFin = n := by
    apply Fin.ext
    show (BitVec.extractLsb' 2 3 _).toNat = n.val
    rw [BitVec.extractLsb'_toNat, hn, Nat.shiftRight_eq_div_pow]
    omega
  have word : (0x20 + 4 * n.val + k) % 4 = k := by omega
  simp (disch := omega) only [State.windowRead, hn, if_neg, if_pos, entry, word]

/-- A read in the region view is a word of one slot (11.9). -/
theorem State.windowRead_region (r : RegionIx) {k : Nat} (hk : k < 4) :
    s.windowRead p (BitVec.ofNat 8 (0x40 + 4 * r.val + k)) = s.regionWord r k := by
  have hn : (BitVec.ofNat 8 (0x40 + 4 * r.val + k)).toNat = 0x40 + 4 * r.val + k := by
    rw [BitVec.toNat_ofNat]
    omega
  have slot : ((BitVec.ofNat 8 (0x40 + 4 * r.val + k) - 0x40#8).extractLsb' 2 5).toFin = r := by
    apply Fin.ext
    show (BitVec.extractLsb' 2 5 _).toNat = r.val
    rw [BitVec.extractLsb'_toNat, BitVec.toNat_sub, hn, Nat.shiftRight_eq_div_pow]
    simp only [BitVec.toNat_ofNat]
    omega
  have word : (0x40 + 4 * r.val + k) % 4 = k := by omega
  simp (disch := omega) only [State.windowRead, hn, if_neg, if_pos, slot, word]

/-- The words with no register read 0 (11.1). -/
theorem State.windowRead_unused {n : Nat}
    (h : n = 0x07 ∨ n = 0x0C ∨ (0x14 ≤ n ∧ n < 0x20) ∨ (0xC1 ≤ n ∧ n < 0x100)) :
    s.windowRead p (BitVec.ofNat 8 n) = 0#32 := by
  have hn : (BitVec.ofNat 8 n).toNat = n := by
    rw [BitVec.toNat_ofNat]
    omega
  simp (disch := omega) only [State.windowRead, hn, if_neg]

end

/-- An UNDEFINED slot's entry reads 0 (R178). -/
theorem State.regionWord_of_none {s : State} {r : RegionIx} (h : s.slot r = none) (k : Nat) : s.regionWord r k = 0#32 := by
  simp [State.regionWord, h]

theorem State.regionWord_of_some {s : State} {r : RegionIx} {g : Region} (h : s.slot r = some g) (k : Nat) :
    s.regionWord r k = g.viewWord k := by
  simp [State.regionWord, h]

/-- The four words of a record, as the head of the queue shows them (11.6). -/
theorem State.windowRead_head {s : State} {p : Port} {x : Record} {rest : List Record} (h : (s.port p).notes = x :: rest) :
    [0x08#8, 0x09#8, 0x0A#8, 0x0B#8].map (s.windowRead p) = [x.word0, x.word1, x.word2, 0#32] := by
  show [(s.port p).headWord Record.word0, (s.port p).headWord Record.word1, (s.port p).headWord Record.word2, 0#32] = _
  simp only [PortIface.headWord, h]

/-- With an empty queue the head reads 0 (R148). -/
theorem State.windowRead_head_of_nil {s : State} {p : Port} (h : (s.port p).notes = []) :
    [0x08#8, 0x09#8, 0x0A#8, 0x0B#8].map (s.windowRead p) = [0#32, 0#32, 0#32, 0#32] := by
  show [(s.port p).headWord Record.word0, (s.port p).headWord Record.word1, (s.port p).headWord Record.word2, 0#32] = _
  simp only [PortIface.headWord, h]

/-- The words of the fault record, 0 while it is empty (11.7). -/
theorem State.windowRead_frec (s : State) (p : Port) :
    [0x10#8, 0x11#8, 0x12#8, 0x13#8].map (s.windowRead p) = ((s.port p).fault.elim [0#32, 0#32, 0#32, 0#32] fun f =>
      [f.word0, f.viewAddr.zeroExtend 32, (f.storeAddr.getD 0#18).zeroExtend 32, 0#32]) := by
  show [(s.port p).frec _, (s.port p).frec _, (s.port p).frec _, 0#32] = _
  cases h : (s.port p).fault <;> simp only [PortIface.frec, h, Option.elim]

/-- Settles O23: each offset by its row of the window map. -/
theorem regionViewReads : Obligations.RegionViewReads := by
  intro s p i read kindCode head heads
  have code : ∀ k, kindCode k = BitVec.ofNat 4 k.code := fun k => by cases k <;> rfl
  have record : ∀ x : Record, [x.word0, x.word1, x.word2, 0#32] = heads x := by
    intro x
    rw [x.word0_eq]
    cases x with
    | granted r m g t => simp only [Record.word1, Record.word2, field_toNat_zero]; cases m <;> rfl
    | revoked r h w => cases h <;> cases w <;> rfl
    | fault k => cases k <;> rfl
    | dropped r => rfl
    | leaseWarning r n | digestDone r n v | wipeDone r n | overflow n | message q v =>
      simp only [Record.word1, Record.word2, portNumber, field_toNat_zero]
      rfl
  refine ⟨fun ht => ?_, rfl, State.windowRead_head_of_nil, fun x rest hn => (State.windowRead_head hn).trans (record x),
    ?_, fun hf => ?_, fun f hf => ?_, ?_, s.sarbWord_eq, fun o ho => ?_, ?_⟩
  · show hostAccess p (.pstatRead p) s (takePstatRead p) = _
    rw [hostAccess_of_takes rfl ht]
    rfl
  · rw [← i.nmaskWord_eq]
    rfl
  · refine (s.windowRead_frec p).trans ?_
    rw [hf]
    rfl
  · rw [code, ← f.word0_eq]
    refine (s.windowRead_frec p).trans ?_
    rw [hf]
    rfl
  · intro n a
    have entry : ∀ k, k < 4 → read (0x080 + 4 * k + 16 * n.val) = a.word k := by
      intro k hk
      rw [← s.windowRead_aperture p n hk]
      show s.windowRead p (BitVec.ofNat 8 ((0x080 + 4 * k + 16 * n.val) / 4)) = _
      congr 2
      omega
    rw [← a.viewWord_eq, ← a.attrWord_eq, ← field_toNat_zero, ← field_toNat_zero]
    exact List.map_congr_left (l := List.range 4) fun k hk => entry k (List.mem_range.mp hk)
  · refine s.windowRead_unused p ?_
    omega
  · intro r word
    have hword : ∀ k, k < 4 → word k = s.regionWord r k := by
      intro k hk
      rw [← s.windowRead_region p r hk]
      show s.windowRead p (BitVec.ofNat 8 ((0x100 + 16 * r.val + 4 * k) / 4)) = _
      congr 2
      omega
    refine ⟨fun h k hk => (hword k hk).trans (State.regionWord_of_none h k), fun g hg hq => ?_⟩
    have view : ∀ k, k < 4 → word k = g.viewWord k := fun k hk => (hword k hk).trans (State.regionWord_of_some hg k)
    have h0 : word 0 = g.stateWord := view 0 (by decide)
    obtain ⟨b3, b4, b5, b6, b7, b8, b15, b20⟩ := (Region.fits hq).bits
    obtain ⟨n0, n9, n12, n16, n18, n21, n24, n27⟩ := (Region.fits hq).numbers
    rw [h0, view 1 (by decide), view 2 (by decide), view 3 (by decide)]
    refine ⟨n0.trans ?_, b3, fun q => ?_, b8 ▸ Region.exclusiveFlag_iff, n9, n12, b15, fun q hs => ?_, fun hs => ?_, n18,
      b20, n21, n24.trans ?_, n27, field_toNat_zero _, fun hd => ?_, fun d hd => Region.digestWord_eq hd⟩
    · cases g.state <;> rfl
    · cases q
      · exact b4
      · exact b5
      · exact b6
      · exact b7
    · exact BitVec.eq_of_toNat_eq (by rw [n16, hs]; rfl)
    · refine BitVec.eq_of_toNat_eq (n16.trans ?_)
      cases hstate : g.state with
      | ownedBy q => exact absurd hstate (hs q)
      | free | shared | exclusive | draining d | wiping => rfl
    · rcases g.job with _ | ⟨_ | _, _ | _, _⟩ <;> rfl
    · simp [Region.viewWord, hd]

end Sys2Proof.Machine
end

section
/-! SUPPORT. An operation on one region as one change: what its slot becomes, the fences it requests and the records it
offers. Operations done after one another on the same region compose to one such change, and the grant pass is one;
with it the obligation on the pass (O36). -/

namespace Sys2Proof.Machine

/-! ### Records offered to a port -/

/-- The interface with device records offered to it one after another: an ATTACHED port takes them, a DETACHED one
discards them (R144, R147). -/
def PortIface.offered (i : PortIface) (xs : List Record) : PortIface :=
  { i with notes := if i.state = .attached then appendAll i.notes xs else i.notes }

theorem appendAll_append (q : List Record) (xs ys : List Record) :
    appendAll q (xs ++ ys) = appendAll (appendAll q xs) ys := List.foldl_append

@[simp] theorem PortIface.offered_nil (i : PortIface) : i.offered [] = i := by simp [PortIface.offered, appendAll]

theorem PortIface.offered_offered (i : PortIface) (xs ys : List Record) :
    (i.offered xs).offered ys = i.offered (xs ++ ys) := by
  cases h : i.state <;> simp [PortIface.offered, h, appendAll_append]

/-- Where no record is offered to a DETACHED port, the records offered are the records taken. -/
theorem PortIface.notes_offered {i : PortIface} {xs : List Record} (h : i.state = .detached → xs = []) :
    (i.offered xs).notes = appendAll i.notes xs := by
  cases hs : i.state
  · simp [h hs, appendAll]
  · simp [PortIface.offered, hs]

/-- The records `xs` for port `p`, and none for the others. -/
def recordsFor (p : Port) (xs : List Record) (q : Port) : List Record := if q = p then xs else []

@[simp] theorem recordsFor_self (p : Port) (xs : List Record) : recordsFor p xs p = xs := if_pos rfl

theorem recordsFor_of_ne {p q : Port} (xs : List Record) (h : q ≠ p) : recordsFor p xs q = [] := if_neg h

/-- An offered record, at whatever port. -/
theorem State.port_offer_eq (s : State) (p q : Port) (x : Record) :
    (s.offer p x).port q = (s.port q).offered (recordsFor p [x] q) := by
  by_cases h : q = p
  · subst h
    cases hs : (s.port q).state
    · rw [State.offer_of_detached x hs, PortIface.offered, if_neg (by simp [hs])]
    · simp [State.offer_of_attached x hs, PortIface.offered, hs, appendAll]
  · simp [State.offer, recordsFor_of_ne _ h, h]

/-! ### One change of one region -/

/-- Slot `r` becomes `k`, the fence requests are sent, and each port is offered its records. -/
def State.becomes (s : State) (r : RegionIx) (k : Region) (fences : List (Port × RegionIx))
    (news : Port → List Record) : State :=
  { s.setSlot r (some k) with
    fenceRequests := s.fenceRequests ++ fences
    ports := .ofFun fun q => (s.port q).offered (news q) }

/-- No records. -/
def noNews : Port → List Record := fun _ => []

section
variable (s : State) (r : RegionIx) (k k' : Region) (F F' : List (Port × RegionIx)) (N N' : Port → List Record)

@[simp] theorem State.slot_becomes : (s.becomes r k F N).slot r = some k := State.slot_setSlot_self s r (some k)

@[simp] theorem State.port_becomes (q : Port) : (s.becomes r k F N).port q = (s.port q).offered (N q) :=
  PerPort.get_ofFun _ q

@[simp] theorem State.fenceRequests_becomes : (s.becomes r k F N).fenceRequests = s.fenceRequests ++ F := rfl

theorem State.regionEvent_becomes : s.RegionEvent (s.becomes r k F N) r :=
  ⟨⟨rfl, rfl, rfl, rfl, rfl, rfl, rfl, rfl, rfl, rfl, rfl, rfl, fun q => by
    rw [State.port_becomes]; rfl⟩, fun _ h => State.slot_setSlot_of_ne s _ h⟩

/-- Two changes of one region after one another are one. -/
theorem State.becomes_becomes :
    (s.becomes r k F N).becomes r k' F' N' = s.becomes r k' (F ++ F') fun q => N q ++ N' q := by
  have hslots : ((s.setSlot r (some k)).setSlot r (some k')).slots = (s.setSlot r (some k')).slots :=
    congrArg State.slots (State.setSlot_setSlot s r (some k) (some k'))
  change ((s.becomes r k F N).setSlot r (some k')).slots = _ at hslots
  have hports : ∀ q, ((s.becomes r k F N).port q).offered (N' q) = (s.port q).offered (N q ++ N' q) := fun q => by
    rw [State.port_becomes, PortIface.offered_offered]
  unfold State.becomes at *
  simp only [hslots, hports, List.append_assoc]
  rfl

end

section
variable {s : State} {r : RegionIx} {k : Region}

/-- States that differ in no field but the ports, and not in a port, are the same. -/
theorem State.eq_of_port {t : State} (h : t = { s with ports := t.ports }) (hp : ∀ q, t.port q = s.port q) : t = s := by
  have : t.ports = s.ports := PerPort.ext_get hp
  rw [h, this]

theorem State.setSlot_becomes (s : State) (r : RegionIx) (k : Region) : s.setSlot r (some k) = s.becomes r k [] noNews :=
  (State.eq_of_port (by simp [State.becomes]) fun q => by simp [noNews]).symm

/-- No change is the change of a region into itself. -/
theorem State.self_becomes (h : s.slot r = some k) : s = s.becomes r k [] noNews := by
  rw [← State.setSlot_becomes, ← h, State.setSlot_slot]

theorem State.offer_becomes (h : s.slot r = some k) (p : Port) (x : Record) :
    s.offer p x = s.becomes r k [] (recordsFor p [x]) := by
  refine State.eq_of_port ?_ fun q => by rw [State.port_offer_eq, State.port_becomes]
  have : (s.becomes r k [] (recordsFor p [x])) = { s with ports := (s.becomes r k [] (recordsFor p [x])).ports } := by
    conv_rhs => rw [← State.setSlot_slot s r, h]
    simp [State.becomes]
  rw [this]
  rfl

theorem State.sendFence_becomes (h : s.slot r = some k) (p : Port) :
    s.sendFence r p = s.becomes r k [(p, r)] noNews := by
  refine (State.eq_of_port ?_ fun q => by simp [noNews]).symm
  conv_rhs => rw [← State.setSlot_slot s r, h]
  rfl

end

/-! ### The grant pass -/

/-- The GRANTED records a pass on region `r` offers to a port (R32). -/
def Region.passNews (g : Region) (r : RegionIx) (q : Port) : List Record :=
  (g.passRun.filter fun e => e.port = q).map (g.grantRecord r)

/-- Records offered to the ports of a list of entries. -/
theorem State.foldl_offer_becomes {r : RegionIx} {k : Region} (f : WaitEntry → Record) (l : List WaitEntry) {s : State}
    (h : s.slot r = some k) :
    l.foldl (fun t e => t.offer e.port (f e)) s = s.becomes r k [] fun q => (l.filter fun e => e.port = q).map f := by
  induction l generalizing s with
  | nil => exact State.self_becomes h
  | cons e l ih =>
    rw [List.foldl_cons, ih (s := s.offer e.port (f e)) h, State.offer_becomes h, State.becomes_becomes]
    congr 1
    funext q
    by_cases he : e.port = q
    · simp [recordsFor, he]
    · simp [recordsFor, he, Ne.symm he]

/-- The grant pass of a region is one change of it (R30 to R32). -/
theorem State.grantPass_becomes {s : State} {r : RegionIx} {g : Region} (h : s.slot r = some g) :
    s.grantPass r = s.becomes r g.afterPass [] (g.passNews r) := by
  have : s.grantPass r =
      g.passRun.foldl (fun t e => t.offer e.port (g.grantRecord r e)) (s.setSlot r (some g.afterPass)) := by
    simp [State.grantPass, h]
  rw [this, State.foldl_offer_becomes _ _ (State.slot_setSlot_self _ _ _), State.setSlot_becomes, State.becomes_becomes]
  rfl

/-- What a slot holds after a pass is a matter of its region alone. -/
theorem State.passed_eq (s : State) (r : RegionIx) (g : Region) : s.passed r g = some g.afterPass := by
  rw [State.passed, State.grantPass_becomes (State.slot_setSlot_self s r (some g)), State.slot_becomes]

/-- A change of region `r` followed by its pass. -/
theorem State.grantPass_of_becomes (s : State) (r : RegionIx) (k : Region) (F : List (Port × RegionIx))
    (N : Port → List Record) :
    (s.becomes r k F N).grantPass r = s.becomes r k.afterPass F fun q => N q ++ k.passNews r q := by
  rw [State.grantPass_becomes (State.slot_becomes s r k F N), State.becomes_becomes, List.append_nil]

/-! ### Granted entries -/

/-- Grants change holders and state, and nothing else (R28, R32). -/
theorem Region.foldl_grant_eq (l : List WaitEntry) (g : Region) :
    l.foldl Region.grant g =
      { g with holders := (l.foldl Region.grant g).holders, state := (l.foldl Region.grant g).state } := by
  induction l generalizing g with
  | nil => rfl
  | cons e l ih => exact ih (g.grant e)

/-- A port none of the entries is of keeps what it holds. -/
theorem Region.get_foldl_grant_of_ne {l : List WaitEntry} {q : Port} (h : ∀ e ∈ l, e.port ≠ q) (g : Region) :
    (l.foldl Region.grant g).holders.get q = g.holders.get q := by
  induction l generalizing g with
  | nil => rfl
  | cons e l ih =>
    obtain ⟨he, hl⟩ := List.forall_mem_cons.mp h
    rw [List.foldl_cons, ih hl]
    exact PerPort.get_set_of_ne _ _ he.symm

/-- Each entry, the only one of its port, becomes a new hold (R20, R28). -/
theorem Region.get_foldl_grant {l : List WaitEntry} (hn : (l.map WaitEntry.port).Nodup) {e : WaitEntry} (he : e ∈ l)
    (g : Region) : (l.foldl Region.grant g).holders.get e.port = some (newHold g.attrs.lease e.mode) := by
  induction l generalizing g with
  | nil => cases he
  | cons a l ih =>
    obtain ⟨ha, hl⟩ := List.nodup_cons.mp hn
    rcases List.mem_cons.mp he with rfl | he
    · have hne : ∀ x ∈ l, x.port ≠ e.port := fun x hx hp => ha (List.mem_map.mpr ⟨x, hx, hp⟩)
      rw [List.foldl_cons, Region.get_foldl_grant_of_ne hne]
      exact PerPort.get_set_self _ _ _
    · exact ih hl he (g.grant a)

/-- The state grants of one mode leave (R28, R32). -/
theorem Region.state_foldl_grant {m : Mode} {l : List WaitEntry} (h : ∀ e ∈ l, e.mode = m) (g : Region) :
    (l.foldl Region.grant g).state = if l = [] then g.state else m.heldState := by
  induction l generalizing g with
  | nil => rfl
  | cons e l ih =>
    obtain ⟨he, hl⟩ := List.forall_mem_cons.mp h
    rw [List.foldl_cons, ih hl, if_neg (List.cons_ne_nil e l), ← he]
    split <;> rfl

/-- The entries granted stand at the front of the queue. -/
theorem Region.queue_eq_passRun (g : Region) : g.queue = g.passRun ++ g.queue.drop g.passRun.length := by
  rcases g.passRun_cases with h | ⟨-, rest, hq, -⟩ | ⟨e, rest, h, hq, -⟩
  · rw [h]; rfl
  · conv_lhs => rw [hq]
    rw [show g.queue.drop g.passRun.length = rest from (congrArg (List.drop _) hq).trans List.drop_left]
  · rw [h, hq]; rfl

theorem Region.passRun_sublist (g : Region) : g.passRun.Sublist g.queue := by
  conv_rhs => rw [g.queue_eq_passRun]
  exact List.sublist_append_left _ _

theorem Region.waits_of_mem_passRun {g : Region} {e : WaitEntry} (h : e ∈ g.passRun) : g.waits e.port :=
  ⟨e, g.passRun_sublist.subset h, rfl⟩

/-- Entries granted in one pass are of one mode (R31). -/
theorem Region.passRun_mode (g : Region) : ∃ m, ∀ e ∈ g.passRun, e.mode = m := by
  rcases g.passRun_cases with h | ⟨-, rest, -, hm⟩ | ⟨e, rest, h, -, -⟩
  · exact ⟨.shared, by simp [h]⟩
  · exact ⟨.shared, hm⟩
  · exact ⟨e.mode, by simp [h]⟩

/-- A pass changes the queue, the holders and the state, and nothing else (R32). -/
theorem Region.afterPass_eq (g : Region) :
    g.afterPass = { g with
      queue := g.queue.drop g.passRun.length, holders := g.afterPass.holders, state := g.afterPass.state } :=
  Region.foldl_grant_eq _ _

theorem Region.afterPass_generation (g : Region) : g.afterPass.generation = g.generation := by rw [Region.afterPass_eq]
theorem Region.afterPass_taint (g : Region) : g.afterPass.taint = g.taint := by rw [Region.afterPass_eq]

theorem Region.get_afterPass_of_ne {g : Region} {q : Port} (h : ∀ e ∈ g.passRun, e.port ≠ q) :
    g.afterPass.holders.get q = g.holders.get q := Region.get_foldl_grant_of_ne h _

theorem Region.get_afterPass {g : Region} (hn : (g.queue.map WaitEntry.port).Nodup) {e : WaitEntry} (he : e ∈ g.passRun) :
    g.afterPass.holders.get e.port = some (newHold g.attrs.lease e.mode) :=
  Region.get_foldl_grant (hn.sublist (g.passRun_sublist.map _)) he _

/-- A pass that grants nothing changes nothing. -/
theorem Region.afterPass_of_nil {g : Region} (h : g.passRun = []) : g.afterPass = g := by
  simp [Region.afterPass, h]

theorem Region.passNews_of_ne {g : Region} {q : Port} (r : RegionIx) (h : ∀ e ∈ g.passRun, e.port ≠ q) :
    g.passNews r q = [] := by
  rw [Region.passNews, List.filter_eq_nil_iff.mpr (by simpa using h), List.map_nil]

theorem Region.passNews_of_not_waits {g : Region} {q : Port} (r : RegionIx) (h : ¬ g.waits q) : g.passNews r q = [] :=
  Region.passNews_of_ne r fun _ he hp => h (hp ▸ Region.waits_of_mem_passRun he)

/-- In a list that names no port twice an entry is the only one of its port. -/
theorem filter_port_eq_singleton {l : List WaitEntry} (hn : (l.map WaitEntry.port).Nodup) {e : WaitEntry} (he : e ∈ l) :
    (l.filter fun x => x.port = e.port) = [e] := by
  induction l with
  | nil => cases he
  | cons a l ih =>
    obtain ⟨ha, hl⟩ := List.nodup_cons.mp hn
    rcases List.mem_cons.mp he with rfl | he
    · rw [List.filter_cons_of_pos (by simp), List.filter_eq_nil_iff.mpr fun x hx hp =>
        ha (List.mem_map.mpr ⟨x, hx, by simpa using hp⟩)]
    · rw [List.filter_cons_of_neg (by
        simp only [decide_eq_true_eq]; exact fun hp => ha (hp ▸ List.mem_map_of_mem he)), ih hl he]

/-- Each granted port is offered one record (R32). -/
theorem Region.passNews_of_mem {g : Region} (r : RegionIx) (hn : (g.queue.map WaitEntry.port).Nodup) {e : WaitEntry}
    (he : e ∈ g.passRun) : g.passNews r e.port = [.granted r e.mode g.generation g.taint] := by
  rw [Region.passNews, filter_port_eq_singleton (hn.sublist (g.passRun_sublist.map _)) he]
  rfl

/-! ### The run -/

section
variable {g : Region} {e : WaitEntry} {es : List WaitEntry}

theorem WaitEntry.isShared_iff (e : WaitEntry) : e.isShared = true ↔ e.mode = .shared := by simp [WaitEntry.isShared]

theorem WaitEntry.not_isShared_iff (e : WaitEntry) : ¬ e.isShared = true ↔ e.mode = .exclusive := by
  cases h : e.mode <;> simp [WaitEntry.isShared, h]

/-- With a SHARED entry first, a FREE or SHARED region's run is the longest run of SHARED entries (R31). -/
theorem Region.passRun_shared (hs : g.state = .free ∨ g.state = .shared) (hq : g.queue = e :: es) (hm : e.mode = .shared) :
    g.passRun = g.queue.takeWhile WaitEntry.isShared := by
  have he : e.isShared = true := e.isShared_iff.mpr hm
  obtain hs | hs := hs <;> simp [Region.passRun, hs, hq, he]

/-- With an EXCLUSIVE entry first, only a FREE region without a job grants, and grants that entry (R31). -/
theorem Region.passRun_exclusive (hq : g.queue = e :: es) (hm : e.mode = .exclusive) :
    g.passRun = if g.state = .free ∧ g.job = none then [e] else [] := by
  have he : e.isShared = false := by simp [WaitEntry.isShared, hm]
  cases hs : g.state <;> simp [Region.passRun, hs, hq, he]

theorem Region.passRun_of_queue_nil (hq : g.queue = []) : g.passRun = [] :=
  List.sublist_nil.mp (hq ▸ g.passRun_sublist)

theorem Region.passRun_of_state (h1 : g.state ≠ .free) (h2 : g.state ≠ .shared) : g.passRun = [] := by
  cases hs : g.state <;> simp_all [Region.passRun]

end

/-- Settles O36: the run is `Region.passRun`, and the pass is one change of its region. -/
theorem grantPassGrants : Obligations.GrantPassGrants := by
  intro s r g hg hn
  rw [State.grantPass_becomes hg]
  refine ⟨g.passRun, g.queue.drop g.passRun.length, g.queue_eq_passRun, ?_, ?_, ?_, g.afterPass, State.slot_becomes ..,
    g.afterPass_eq, fun e => Region.get_afterPass hn, fun p => Region.get_afterPass_of_ne,
    fun h => by rw [Region.afterPass_of_nil h], fun e he => ?_, fun e he => ?_, fun p hp => ?_, ?_⟩
  · rintro hs ⟨e, es, hq, hm⟩
    have he : e.isShared = true := e.isShared_iff.mpr hm
    have hrest : g.queue.drop g.passRun.length = g.queue.dropWhile WaitEntry.isShared := by
      have h : g.passRun ++ g.queue.drop g.passRun.length = g.passRun ++ g.queue.dropWhile WaitEntry.isShared := by
        rw [← g.queue_eq_passRun, Region.passRun_shared hs hq hm, List.takeWhile_append_dropWhile]
      exact List.append_cancel_left h
    rw [hrest, Region.passRun_shared hs hq hm]
    refine ⟨by simp [hq, he], fun x hx => x.isShared_iff.mp (List.mem_takeWhile_imp hx), fun x xs hx => ?_⟩
    have hne : g.queue.dropWhile WaitEntry.isShared ≠ [] := by simp [hx]
    have := List.head_dropWhile_not WaitEntry.isShared hne
    simp only [hx, List.head_cons] at this
    exact x.not_isShared_iff.mp (by simp [this])
  · intro e es hs hq hm hj
    rw [Region.passRun_exclusive hq hm, if_pos ⟨hs, hj⟩]
  · rintro (hq | ⟨h1, h2⟩ | ⟨e, es, hq, hm, h⟩)
    · exact Region.passRun_of_queue_nil hq
    · exact Region.passRun_of_state h1 h2
    · rw [Region.passRun_exclusive hq hm, if_neg]
      rintro ⟨hs, hj⟩
      exact h.elim (by simp [hs]) (· hj)
  · obtain ⟨m, hm⟩ := g.passRun_mode
    rw [Region.afterPass, Region.state_foldl_grant hm, if_neg (List.ne_nil_of_mem he), hm e he]
    cases m <;> rfl
  · rw [State.port_becomes, Region.passNews_of_mem r hn he]
    rfl
  · rw [State.port_becomes, Region.passNews_of_ne r hp, PortIface.offered_nil]
  · simp [State.becomes]

end Sys2Proof.Machine
end

section
/-! SUPPORT. The obligations on ACQUIRE, CANCEL, RELEASE and the wrote flag (O7, O8, O9, O27). -/

namespace Sys2Proof.Machine

/-- A region command that passes the first checks is decided on its region (R25). -/
theorem State.onRegion_launched {s : State} {p : Port} {r : RegionIx} {g : Region} (h : s.commands p)
    (hg : s.slot r = some g) (w : Word) (k : Region → Decision) : (s.launched p w).onRegion p r k = k g :=
  State.onRegion_pass h.2.1 ((s.launched_port_state p p w).trans h.2.2) hg

/-! ### ACQUIRE -/

theorem RegionState.proprietor_isSome_iff (x : RegionState) : x.proprietor.isSome = true ↔ ∃ q, x = .ownedBy q := by
  cases x <;> simp [RegionState.proprietor]

/-- The table of R27. -/
theorem Region.grantable_iff (g : Region) (m : Mode) : g.grantable m = true ↔
    (m = .shared ∧ (g.state = .free ∨ g.state = .shared) ∧ g.queue = []) ∨
      (m = .exclusive ∧ g.state = .free ∧ g.queue = [] ∧ g.job = none) := by
  cases m <;> cases hs : g.state <;> simp [Region.grantable, hs]

/-- CRESV after a grant, bit by bit (11.5). -/
theorem grantValue_eq (generation : Half) (taint : Bool) (m : Mode) :
    grantValue generation taint m = generation.zeroExtend 32 ||| (if taint then 0x10000#32 else 0#32) |||
      (if m = .exclusive then 0x20000#32 else 0#32) := by
  rw [grantValue, field_toNat_zero]
  cases taint <;> cases m <;> rfl

/-- The mode an ACQUIRE asks for (11.4). -/
def askedMode (exclusive : Bool) : Mode := if exclusive then .exclusive else .shared

theorem askedMode_eq_exclusive (x : Bool) : askedMode x = .exclusive ↔ x = true := by cases x <;> decide

theorem askedMode_eq_shared (x : Bool) : askedMode x = .shared ↔ x = false := by cases x <;> decide

theorem heldState_askedMode (x : Bool) : (askedMode x).heldState = if x then .exclusive else .shared := by
  cases x <;> rfl

/-- Settles O7: the branches of the decision in their order. -/
theorem acquireDecided : Obligations.AcquireDecided := by
  intro s p c g hc hg m grantable passes hold
  have ht := hc.1
  have pass := State.onRegion_launched hc hg (c.word 0x10#8)
  have h := launches_acquire p c
  have hgrantable : g.grantable (askedMode c.exclusive) = true ↔ grantable := by
    rw [g.grantable_iff, askedMode_eq_exclusive, askedMode_eq_shared]
  have hprivate : (∀ q, g.state ≠ .ownedBy q) → ¬ g.state.proprietor.isSome = true := fun hp hx =>
    let ⟨q, hq⟩ := g.state.proprietor_isSome_iff.mp hx
    hp q hq
  have hwaits : ¬ g.waits p → ¬ g.waitsFor p = true := fun hw hx => hw (Region.waitsFor_iff.mp hx)
  have decided : passes → decideAcquire p c (s.launched p (c.word 0x10#8)) =
      if g.grantable (askedMode c.exclusive) then
        ((s.setSlot c.region (some (g.grant ⟨p, askedMode c.exclusive⟩))).launched p (c.word 0x10#8), .granted,
          grantValue g.generation g.taint (askedMode c.exclusive))
      else if c.wait then
        ((s.setSlot c.region (some { g with queue := g.queue ++ [⟨p, askedMode c.exclusive⟩] })).launched p
          (c.word 0x10#8), .queued, field (g.queue.length + 1) 0)
      else refuse (s.launched p (c.word 0x10#8)) .busy := by
    rintro ⟨hm, hp, hh, hw⟩
    rw [decideAcquire, pass, if_neg (by simp [hm]), if_neg (hprivate hp), if_neg hh, if_neg (hwaits hw)]
    rfl
  refine ⟨fun hm => h.refused ht (x := .notMember) ?_, fun hm hp => h.refused ht (x := .regionPrivate) ?_,
    fun hm hp hh => h.refused ht (x := .alreadyHeld) ?_, fun hm hp hh hw => h.refused ht (x := .alreadyQueued) ?_,
    fun hp hgr => ?_, fun hp hgr hw => ?_, fun hp hgr hw => h.refused ht (x := .busy) ?_⟩
  · rw [decideAcquire, pass, if_pos (by simp [hm])]
  · rw [decideAcquire, pass, if_neg (by simp [hm]), if_pos (g.state.proprietor_isSome_iff.mpr hp)]
  · rw [decideAcquire, pass, if_neg (by simp [hm]), if_neg (hprivate hp), if_pos hh]
  · rw [decideAcquire, pass, if_neg (by simp [hm]), if_neg (hprivate hp), if_neg hh, if_pos (Region.waitsFor_iff.mpr hw)]
  · have hd := decided hp
    rw [if_pos (hgrantable.mpr hgr), grantValue_eq] at hd
    simp only [askedMode_eq_exclusive, Region.grant, heldState_askedMode] at hd
    exact h.answers ht hd
  · have hd := decided hp
    rw [if_neg fun h => hgr (hgrantable.mp h), if_pos hw,
      show field (g.queue.length + 1) 0 = BitVec.ofNat 32 (g.queue.length + 1) by simp [field]] at hd
    exact h.answers ht hd
  · rw [decided hp, if_neg fun h => hgr (hgrantable.mp h), if_neg (by simp [hw])]

/-! ### CANCEL and RELEASE -/

/-- What a taken command answers, whatever its decision. -/
theorem Launches.decided {i : Instr} {p : Port} {word : Word} {decide : State → Decision} {s t : State} {x : Result} {v : Word}
    (h : Launches i p word decide) (ht : s.takes p) (hd : decide (s.launched p word) = (t, x, v)) :
    exec i s = .next (t.answered p x.code v) := by
  rw [h.meaning, hostAccess_of_takes h.wf ht, launch_eq, hd]

/-- Settles O8. -/
theorem cancelDecided : Obligations.CancelDecided := by
  intro s p c g hc hg
  have ht := hc.1
  have pass := State.onRegion_launched hc hg (c.word 0x11#8)
  have h := launches_cancel p c
  refine ⟨fun hw => h.decided ht (x := .withdrawn) ?_, fun hw => h.refused ht (x := .notQueued) ?_⟩
  · rw [decideCancel, pass, if_pos (Region.waitsFor_iff.mpr hw)]
    rfl
  · rw [decideCancel, pass, if_neg fun hx => hw (Region.waitsFor_iff.mp hx)]

/-- A region that drains grants nothing in a pass (R30). -/
theorem Region.passRun_endExclusive (g : Region) (p : Port) (e : EndedHold) (a : PerPort Bool) :
    (g.endExclusive p e a).passRun = [] := Region.passRun_of_state nofun nofun

/-- A pass that grants nothing changes nothing of the device. -/
theorem State.grantPass_of_nil {s : State} {r : RegionIx} {g : Region} (hg : s.slot r = some g) (h : g.passRun = []) :
    s.grantPass r = s := by
  rw [State.grantPass_becomes hg, Region.afterPass_of_nil h]
  conv_rhs => rw [State.self_becomes hg]
  congr 1
  funext q
  exact Region.passNews_of_ne r (by simp [h])

/-- The end of a SHARED hold that is not the last leaves the region SHARED (R38). -/
theorem Region.endShared_of_others {g : Region} {p : Port} (h : ∃ q, q ≠ p ∧ g.holds q) :
    g.endShared p = { g with state := .shared, holders := g.holders.set p none } := by
  have : (g.dropHold p).held = true := (Region.held_iff _).mpr (h.imp fun _ => Region.holds_dropHold.mpr)
  rw [Region.endShared, if_pos this]
  rfl

/-- The end of the last SHARED hold leaves the region FREE (R38). -/
theorem Region.endShared_of_last {g : Region} {p : Port} (h : ∀ q, g.holds q → q = p) :
    g.endShared p = { g with state := .free, holders := g.holders.set p none } := by
  have : ¬ (g.dropHold p).held = true := fun hh =>
    let ⟨q, hq⟩ := (Region.held_iff _).mp hh
    (Region.holds_dropHold.mp hq).1 (h q (Region.holds_dropHold.mp hq).2)
  rw [Region.endShared, if_neg this]
  rfl

/-- Settles O9. -/
theorem releaseDecided : Obligations.ReleaseDecided := by
  intro s p c g hc hg
  have ht := hc.1
  have pass := State.onRegion_launched hc hg (c.word 0x12#8)
  have hslot : (s.launched p (c.word 0x12#8)).slot c.region = some g := hg
  have h := launches_release p c
  have decided : ∀ {x}, g.holders.get p = some x → decideRelease p c (s.launched p (c.word 0x12#8)) =
      (((s.launched p (c.word 0x12#8)).endHold c.region p false).grantPass c.region, .done, 0#32) := fun hx => by
    rw [decideRelease, pass, if_pos (by simp [hx])]
  have shared : ∀ {x}, g.holders.get p = some x → x.mode = .shared → exec (.release p c) s =
      .next ((((s.launched p (c.word 0x12#8)).setSlot c.region (some (g.endShared p))).grantPass c.region).answered
        p 0x00#8 0#32) := by
    intro x hx hm
    obtain ⟨-, he⟩ | ⟨hm', -⟩ := State.endHold_of_hold false hslot hx
    · exact h.decided ht (x := .done) (by rw [decided hx, he])
    · rw [hm] at hm'; cases hm'
  refine ⟨fun hh => h.refused ht (x := .notHeld) ?_, fun x hx hm hq => ?_, fun x hx hm hq => ?_,
    fun x hx hm => h.answers ht (x := .done) ?_⟩
  · rw [decideRelease, pass, if_neg hh]
  · rw [shared hx hm, Region.endShared_of_others hq]
  · rw [shared hx hm, Region.endShared_of_last hq]
  · obtain ⟨hm', -⟩ | ⟨-, he⟩ := State.endHold_of_hold false hslot hx
    · rw [hm] at hm'; cases hm'
    · rw [decided hx, he, State.grantPass_of_nil (g := g.endExclusive p ⟨x.wrote, false⟩ (onlyPort p)) ?_
        (Region.passRun_endExclusive ..)]
      · rfl
      · exact State.slot_setSlot_self _ _ _

/-! ### The wrote flag -/

theorem State.noteWrite_of_region {s : State} {p : Port} {w : StoreAddr} {r : RegionIx} {g : Region}
    (hw : s.regionOf w = some r) (hg : s.slot r = some g) : s.noteWrite p w = s.setSlot r (some (g.noteWrite p)) := by
  simp [State.noteWrite, hw, State.updRegion, hg]

/-- Outside PRIVATE the flag is a matter of the port's hold (R21). -/
theorem Region.noteWrite_of_not_private {g : Region} (p : Port) (hs : ∀ q, g.state ≠ .ownedBy q) :
    g.noteWrite p = if g.exclusiveBy p then { g with holders := g.holders.set p ((g.holders.get p).map Hold.noted) } else g := by
  unfold Region.noteWrite
  split
  · next q hq => exact absurd hq (hs q)
  · rfl

/-- Settles O27. -/
theorem acceptedWriteSetsWroteFlag : Obligations.AcceptedWriteSetsWroteFlag := by
  intro s p w
  refine ⟨fun r g x hw hg hs hx hm => ?_, fun hw => by simp [State.noteWrite, hw], fun r g hw hg h => ?_⟩
  · rw [State.noteWrite_of_region hw hg, Region.noteWrite_of_not_private p hs,
      if_pos (Region.exclusiveBy_iff.mpr ⟨x, hx, hm⟩), hx]
    rfl
  · have unchanged : g.noteWrite p = g := by
      by_cases hs : ∃ q, g.state = .ownedBy q
      · obtain ⟨q, hq⟩ := hs
        simp [Region.noteWrite, hq]
      · rw [Region.noteWrite_of_not_private p fun q hq => hs ⟨q, hq⟩, if_neg]
        simpa [Region.exclusiveBy] using h.resolve_left hs
    rw [State.noteWrite_of_region hw hg, unchanged, ← hg, State.setSlot_slot]

end Sys2Proof.Machine
end

section
/-! SUPPORT. Operations done region by region over the whole table, as one change of each region; the end of a port's
part in a region at DETACH and at a port reset; and the obligation on DETACH (O10). -/

namespace Sys2Proof.Machine

/-! ### Region by region -/

/-- What an operation makes of a region: the region after it, the fences it requests and the records it offers. -/
structure Turn where
  region : Region
  fences : List (Port × RegionIx)
  news : Port → List Record

/-- `u` is `t` after an operation on region `r` that makes `x` of it; the engine's jobs are not spoken of. -/
structure State.Turns (t u : State) (r : RegionIx) (x : Turn) : Prop where
  slot : u.slot r = some x.region
  fences : u.fenceRequests = t.fenceRequests ++ x.fences
  port : ∀ q, u.port q = (t.port q).offered (x.news q)

theorem State.turns_becomes (s : State) (r : RegionIx) (x : Turn) :
    s.Turns (s.becomes r x.region x.fences x.news) r x :=
  ⟨State.slot_becomes .., rfl, State.port_becomes s r _ _ _⟩

/-- What can be seen of the state after an operation done region by region, where each region's own operation changes
what is seen as `step` says. -/
theorem State.foldl_view {f : State → RegionIx → State} (hf : ∀ (s : State) (r : RegionIx), s.RegionEvent (f s r) r)
    {α : Type} {view : State → α} {step : α → RegionIx → α} {s : State}
    (h : ∀ t r, s.LockEvent t → t.slot r = s.slot r → view (f t r) = step (view t) r) {l : List RegionIx} (hl : l.Nodup) :
    view (l.foldl f s) = l.foldl step (view s) := by
  suffices H : ∀ t, s.LockEvent t → (∀ r ∈ l, t.slot r = s.slot r) → view (l.foldl f t) = l.foldl step (view t) from
    H s (State.LockEvent.refl s) fun _ _ => rfl
  induction l with
  | nil => exact fun _ _ _ => rfl
  | cons r l ih =>
    intro t ht hslots
    obtain ⟨hr, hl⟩ := List.nodup_cons.mp hl
    obtain ⟨hslot, hslots⟩ := List.forall_mem_cons.mp hslots
    have event := hf t r
    rw [List.foldl_cons, List.foldl_cons, ← h t r ht hslot]
    refine ih hl _ (ht.trans event.toLockEvent) fun q hq => ?_
    rw [event.slot q fun e => hr (e ▸ hq), hslots q hq]

/-- Records offered list by list. -/
theorem PortIface.foldl_offered {α : Type} (f : α → List Record) (l : List α) (i : PortIface) :
    l.foldl (fun i a => i.offered (f a)) i = i.offered (l.flatMap f) := by
  induction l generalizing i with
  | nil => simp
  | cons a l ih => rw [List.foldl_cons, ih, PortIface.offered_offered, List.flatMap_cons]

/-- The records of a whole event for port `q`, region after region. -/
def State.allNews (s : State) (turn : RegionIx → Region → Turn) (q : Port) : List Record :=
  allRegions.flatMap fun r => (s.slot r).elim [] fun g => (turn r g).news q

/-- An operation done region by region over the whole table, each region's own making `turn` of it. -/
theorem State.foldl_turns {f : State → RegionIx → State} (hf : ∀ (s : State) (r : RegionIx), s.RegionEvent (f s r) r)
    {s : State} {turn : RegionIx → Region → Turn} (hn : ∀ t r, t.slot r = none → f t r = t)
    (h : ∀ t r g, s.LockEvent t → s.slot r = some g → t.slot r = some g → t.Turns (f t r) r (turn r g)) :
    (∀ r, (allRegions.foldl f s).slot r = (s.slot r).map fun g => (turn r g).region) ∧
    (allRegions.foldl f s).fenceRequests =
      s.fenceRequests ++ allRegions.flatMap (fun r => (s.slot r).elim [] fun g => (turn r g).fences) ∧
    ∀ q, (allRegions.foldl f s).port q = (s.port q).offered (s.allNews turn q) := by
  have nothing : ∀ t r, t.slot r = s.slot r → s.slot r = none → f t r = t := fun t r h h' => hn t r (h.trans h')
  refine ⟨fun r => ?_, ?_, fun q => ?_⟩
  · obtain ⟨t, ht, hslot, hr⟩ := State.foldl_allRegions_slot hf s r
    rw [hr]
    cases hg : s.slot r with
    | none => rw [nothing t r hslot hg, hslot, hg]; rfl
    | some g => exact (h t r g ht hg (hslot.trans hg)).slot
  · refine (State.foldl_view hf (view := State.fenceRequests)
      (step := fun l r => l ++ (s.slot r).elim [] fun g => (turn r g).fences) (fun t r ht hslot => ?_)
      allRegions_nodup).trans (List.foldl_append_eq_append ..)
    cases hg : s.slot r with
    | none => rw [nothing t r hslot hg]; exact (List.append_nil _).symm
    | some g => exact (h t r g ht hg (hslot.trans hg)).fences
  · refine (State.foldl_view hf (view := fun t => t.port q)
      (step := fun i r => i.offered ((s.slot r).elim [] fun g => (turn r g).news q)) (fun t r ht hslot => ?_)
      allRegions_nodup).trans (PortIface.foldl_offered ..)
    cases hg : s.slot r with
    | none => rw [nothing t r hslot hg]; exact (PortIface.offered_nil _).symm
    | some g => exact (h t r g ht hg (hslot.trans hg)).port q

/-- An event of the lock engine, field by field. -/
theorem State.LockEvent.eq {s t : State} (h : s.LockEvent t) :
    t = { s with
      slots := t.slots, ports := t.ports, jobQueue := t.jobQueue, current := t.current, starts := t.starts
      fenceRequests := t.fenceRequests } := by
  obtain ⟨h1, h2, h3, h4, h5, h6, h7, h8, h9, h10, h11, h12, -⟩ := h
  simp only [← h1, ← h2, ← h3, ← h4, ← h5, ← h6, ← h7, ← h8, ← h9, ← h10, ← h11, ← h12]

/-! ### A port's part in a region, cut -/

section
variable {g : Region} {p q : Port} {x : Hold}

theorem Region.heldByOthers_eq (g : Region) (p : Port) : g.heldByOthers p = (g.dropHold p).held := by
  cases p <;> simp [Region.heldByOthers, Region.held, Region.dropHold, PerPort.get, PerPort.set, Bool.or_assoc]

/-- Without an entry of the port, withdrawing it changes nothing. -/
theorem Region.filter_queue_of_not_waits (h : ¬ g.waits p) : (g.queue.filter fun e => e.port ≠ p) = g.queue :=
  List.filter_eq_self.mpr fun e he => by simpa using fun hp => h ⟨e, he, hp⟩

theorem Region.lawful.not_waits_of_hold (hl : g.lawful) (hx : g.holders.get p = some x) : ¬ g.waits p := fun hw =>
  hl.2.2.1.2.1 p hw (Region.holds_iff.mpr ⟨x, hx⟩)

/-- A SHARED hold is cut as it is released (R38, R44). -/
theorem Region.cut_of_shared (hl : g.lawful) (hx : g.holders.get p = some x) (hm : x.mode = .shared) :
    g.cut p = g.endShared p := by
  unfold Region.cut
  simp only [hx, hm, Region.filter_queue_of_not_waits (hl.not_waits_of_hold hx), Region.heldByOthers_eq]
  rfl

/-- A port without a hold is cut by withdrawing its entry (R35, R44). -/
theorem Region.cut_of_not_holds (hx : g.holders.get p = none) : g.cut p = g.withdraw p := by
  have : g.holders.set p none = g.holders := by rw [← hx, PerPort.set_get]
  simp only [Region.cut, hx, this, Region.withdraw]

theorem Region.cut_queue (g : Region) (p : Port) : (g.cut p).queue = g.queue.filter fun e => e.port ≠ p := by
  unfold Region.cut
  split
  · rfl
  · split <;> rfl

theorem Region.cut_holders (g : Region) (p : Port) : (g.cut p).holders = g.holders.set p none := by
  unfold Region.cut
  split
  · rfl
  · split <;> rfl

theorem Region.waits_cut : (g.cut p).waits q ↔ q ≠ p ∧ g.waits q := by
  simp only [Region.waits, Region.cut_queue, List.mem_filter]
  constructor
  · rintro ⟨e, ⟨he, hne⟩, rfl⟩
    exact ⟨by simpa using hne, e, he, rfl⟩
  · rintro ⟨hne, e, he, rfl⟩
    exact ⟨e, ⟨he, by simpa using hne⟩, rfl⟩

theorem Region.get_cut_of_ne (h : q ≠ p) : (g.cut p).holders.get q = g.holders.get q := by
  rw [Region.cut_holders, PerPort.get_set_of_ne _ _ h]

theorem Region.lawful.nodup_cut (hl : g.lawful) (p : Port) : ((g.cut p).queue.map WaitEntry.port).Nodup := by
  rw [Region.cut_queue]
  exact hl.2.2.1.1.sublist (List.filter_sublist.map _)

/-- The end of a part that is no EXCLUSIVE hold touches queue, holders and state only (R38, R44). -/
theorem Region.cut_eq (h : g.exclusiveBy p = false) :
    g.cut p = { g with queue := (g.cut p).queue, holders := (g.cut p).holders, state := (g.cut p).state } := by
  rcases hx : g.holders.get p with _ | x
  · rw [Region.cut_of_not_holds hx]; rfl
  · have hm : x.mode = .shared := by cases hm : x.mode <;> simp_all [Region.exclusiveBy]
    simp only [Region.cut, hx, hm]

/-- What a port reset makes of a region: one the port has a part in is cut and has its pass (R44, R165). -/
def Region.cutTurn (g : Region) (p : Port) (r : RegionIx) : Turn :=
  if (g.holders.get p).isSome || g.waitsFor p then ⟨(g.cut p).afterPass, [], (g.cut p).passNews r⟩ else ⟨g, [], noNews⟩

theorem Region.cutTurn_of_involves (r : RegionIx) (h : g.involves p) :
    g.cutTurn p r = ⟨(g.cut p).afterPass, [], (g.cut p).passNews r⟩ :=
  if_pos (by simpa [Region.waitsFor_iff, Region.involves] using h)

theorem Region.cutTurn_of_not_involves (r : RegionIx) (h : ¬ g.involves p) : g.cutTurn p r = ⟨g, [], noNews⟩ :=
  if_neg (by simpa [Region.waitsFor_iff, Region.involves] using h)

/-- What DETACH makes of a region: an EXCLUSIVE hold drains as released, any other part is cut (R39, R41, R163). -/
def Region.leaveTurn (g : Region) (p : Port) (r : RegionIx) : Turn :=
  if g.exclusiveBy p then
    ⟨g.endExclusive p ⟨(g.holders.get p).any Hold.wrote, false⟩ (onlyPort p), [(p, r)], noNews⟩
  else g.cutTurn p r

theorem Region.leaveTurn_of_exclusive (r : RegionIx) (hx : g.holders.get p = some x) (hm : x.mode = .exclusive) :
    g.leaveTurn p r = ⟨g.endExclusive p ⟨x.wrote, false⟩ (onlyPort p), [(p, r)], noNews⟩ := by
  rw [Region.leaveTurn, if_pos (Region.exclusiveBy_iff.mpr ⟨x, hx, hm⟩), hx]
  rfl

theorem Region.exclusiveBy_eq_false (h : ∀ x, g.holders.get p = some x → x.mode ≠ .exclusive) : g.exclusiveBy p = false :=
  Bool.eq_false_iff.mpr fun he =>
    let ⟨x, hx, hm⟩ := Region.exclusiveBy_iff.mp he
    h x hx hm

theorem Region.leaveTurn_of_not_exclusive (r : RegionIx) (h : g.exclusiveBy p = false) :
    g.leaveTurn p r = g.cutTurn p r := if_neg (by simp [h])

end

/-! ### New grants -/

section
variable {s t : State} {r : RegionIx} {g k : Region} {q : Port}

theorem State.newGrant_of_none (h : s.slot r = none) : s.newGrant t q r = none := by simp [State.newGrant, h]

/-- A port that holds what it held is granted nothing. -/
theorem State.newGrant_of_same (hg : s.slot r = some g) (hk : t.slot r = some k)
    (h : k.holders.get q = g.holders.get q) : s.newGrant t q r = none := by
  simp only [State.newGrant, hg, hk, h]
  cases g.holders.get q <;> rfl

/-- After a pass, the GRANTED record of a port is the one that the pass offered it (R32). -/
theorem State.newGrant_of_pass (hg : s.slot r = some g) (ht : t.slot r = some k.afterPass)
    (hn : (k.queue.map WaitEntry.port).Nodup) (hq : k.holders.get q = g.holders.get q) (hw : k.waits q → ¬ k.holds q) :
    (s.newGrant t q r).toList = k.passNews r q := by
  by_cases he : ∃ e ∈ k.passRun, e.port = q
  · obtain ⟨e, he, rfl⟩ := he
    have hnone : g.holders.get e.port = none := by
      rw [← hq]
      simpa [Region.holds] using hw (Region.waits_of_mem_passRun he)
    simp only [State.newGrant, hg, ht, hnone, Region.get_afterPass hn he, Region.passNews_of_mem r hn he,
      Region.afterPass_generation, Region.afterPass_taint]
    rfl
  · have hne : ∀ e ∈ k.passRun, e.port ≠ q := fun e hm hp => he ⟨e, hm, hp⟩
    rw [Region.passNews_of_ne r hne, State.newGrant_of_same hg ht ((Region.get_afterPass_of_ne hne).trans hq)]
    rfl

/-- The records of a cut for another port are its new grants. -/
theorem State.newGrant_cutTurn {p : Port} (hl : g.lawful) (hg : s.slot r = some g)
    (ht : t.slot r = some (g.cutTurn p r).region) (hqp : q ≠ p) :
    (s.newGrant t q r).toList = (g.cutTurn p r).news q := by
  by_cases hi : g.involves p
  · rw [Region.cutTurn_of_involves r hi] at ht ⊢
    refine State.newGrant_of_pass hg ht (hl.nodup_cut p) (Region.get_cut_of_ne hqp) fun hw hh => ?_
    rw [Region.holds, Region.get_cut_of_ne hqp] at hh
    exact hl.2.2.1.2.1 q (Region.waits_cut.mp hw).2 hh
  · rw [Region.cutTurn_of_not_involves r hi] at ht ⊢
    rw [State.newGrant_of_same hg ht rfl]
    rfl

theorem State.newGrant_leaveTurn {p : Port} (hl : g.lawful) (hg : s.slot r = some g)
    (ht : t.slot r = some (g.leaveTurn p r).region) (hqp : q ≠ p) :
    (s.newGrant t q r).toList = (g.leaveTurn p r).news q := by
  cases he : g.exclusiveBy p
  · rw [Region.leaveTurn_of_not_exclusive r he] at ht ⊢
    exact State.newGrant_cutTurn hl hg ht hqp
  · obtain ⟨x, hx, hm⟩ := Region.exclusiveBy_iff.mp he
    rw [Region.leaveTurn_of_exclusive r hx hm] at ht ⊢
    rw [State.newGrant_of_same hg ht (PerPort.get_set_of_ne _ _ hqp)]
    rfl

/-- What is granted is a matter of the slots before and after and of the port's own interface. -/
theorem State.grantedOnly.congr {s' t' : State} (h : s.grantedOnly t q) (hs : ∀ r, s'.slot r = s.slot r)
    (ht : ∀ r, t'.slot r = t.slot r) (hsp : s'.port q = s.port q) (htp : t'.port q = t.port q) : s'.grantedOnly t' q := by
  have : s'.newGrant t' q = s.newGrant t q := funext fun r => by simp only [State.newGrant, hs, ht]
  rw [State.grantedOnly, this, hsp, htp]
  exact h

end

/-- A port that does not wait is offered nothing by a cut, and neither is the port that is cut. -/
theorem Region.news_cutTurn_eq_nil {g : Region} {p q : Port} (r : RegionIx) (h : q = p ∨ ¬ g.waits q) :
    (g.cutTurn p r).news q = [] := by
  unfold Region.cutTurn
  split
  · refine Region.passNews_of_not_waits r fun hw => ?_
    obtain ⟨hne, hw⟩ := Region.waits_cut.mp hw
    exact h.elim hne (· hw)
  · rfl

theorem Region.news_leaveTurn_eq_nil {g : Region} {p q : Port} (r : RegionIx) (h : q = p ∨ ¬ g.waits q) :
    (g.leaveTurn p r).news q = [] := by
  unfold Region.leaveTurn
  split
  · rfl
  · exact Region.news_cutTurn_eq_nil r h

theorem State.allNews_eq_nil {s : State} {turn : RegionIx → Region → Turn} {q : Port}
    (h : ∀ r g, s.slot r = some g → (turn r g).news q = []) : s.allNews turn q = [] := by
  refine List.flatMap_eq_nil_iff.mpr fun r _ => ?_
  cases hg : s.slot r with
  | none => rfl
  | some g => exact h r g hg

/-- Records that are one at most for each region, listed region by region. -/
theorem State.allNews_eq_filterMap {s : State} {turn : RegionIx → Region → Turn} {q : Port} {f : RegionIx → Option Record}
    (hn : ∀ r, s.slot r = none → f r = none) (h : ∀ r g, s.slot r = some g → (f r).toList = (turn r g).news q) :
    s.allNews turn q = (List.finRange 32).filterMap f := by
  rw [State.allNews, List.filterMap_eq_flatMap_toList]
  congr 1
  funext r
  cases hg : s.slot r with
  | none => rw [hn r hg]; rfl
  | some g => exact (h r g hg).symm

/-- A port that takes its records, and to which none is offered while it is DETACHED. -/
theorem PortIface.offered_eq {i : PortIface} {xs : List Record} (h : i.state = .detached → xs = []) :
    i.offered xs = { i with notes := appendAll i.notes xs } := by
  rw [← PortIface.notes_offered h]
  rfl

/-! ### DETACH -/

/-- The end of a port's part in a lawful region at DETACH (R41, R163). -/
theorem State.leaveRegion_becomes {s : State} {p : Port} {r : RegionIx} {g : Region} (hg : s.slot r = some g)
    (hl : g.lawful) :
    s.leaveRegion p r = s.becomes r (g.leaveTurn p r).region (g.leaveTurn p r).fences (g.leaveTurn p r).news := by
  rcases hx : g.holders.get p with _ | x
  · have he : g.exclusiveBy p = false := by simp [Region.exclusiveBy, hx]
    have hh : ¬ g.holds p := by simp [Region.holds, hx]
    rw [Region.leaveTurn_of_not_exclusive r he]
    by_cases hw : g.waits p
    · have : s.leaveRegion p r = (s.setSlot r (some (g.withdraw p))).grantPass r := by
        simp [State.leaveRegion, hg, hx, Region.waitsFor_iff.mpr hw]
      rw [this, Region.cutTurn_of_involves r (.inr hw), State.setSlot_becomes, State.grantPass_of_becomes,
        ← Region.cut_of_not_holds hx]
      rfl
    · have hi : ¬ g.involves p := fun h => h.elim hh hw
      have : s.leaveRegion p r = s := by
        simp [State.leaveRegion, hg, hx, mt Region.waitsFor_iff.mp hw]
      rw [this, Region.cutTurn_of_not_involves r hi]
      exact State.self_becomes hg
  · have hh : g.holds p := Region.holds_iff.mpr ⟨x, hx⟩
    have : s.leaveRegion p r = (s.endHold r p false).grantPass r := by simp [State.leaveRegion, hg, hx]
    rw [this]
    rcases State.endHold_of_hold false hg hx with ⟨hm, he⟩ | ⟨hm, he⟩ <;> rw [he]
    · have he : g.exclusiveBy p = false := by simp [Region.exclusiveBy, hx, hm]
      rw [Region.leaveTurn_of_not_exclusive r he, Region.cutTurn_of_involves r (.inl hh), State.setSlot_becomes,
        State.grantPass_of_becomes, ← Region.cut_of_shared hl hx hm]
      rfl
    · rw [Region.leaveTurn_of_exclusive r hx hm,
        State.grantPass_of_nil (g := g.endExclusive p ⟨x.wrote, false⟩ (onlyPort p)) ?_ (Region.passRun_endExclusive ..), State.setSlot_becomes, State.sendFence_becomes (State.slot_becomes ..),
        State.becomes_becomes]
      · rfl
      · exact State.slot_setSlot_self _ _ _

/-- DETACH's work on the region table (R163). -/
def State.leaveAll (s : State) (p : Port) : State := allRegions.foldl (fun t r => t.leaveRegion p r) s

/-- DETACH leaves identity, taint and job of a region alone (R163). -/
theorem Region.leaveTurn_region_eq (g : Region) (p : Port) (r : RegionIx) :
    (g.leaveTurn p r).region = { g with
      queue := (g.leaveTurn p r).region.queue, holders := (g.leaveTurn p r).region.holders
      state := (g.leaveTurn p r).region.state } := by
  cases he : g.exclusiveBy p
  · rw [Region.leaveTurn_of_not_exclusive r he, Region.cutTurn]
    split
    · rw [Region.afterPass_eq, Region.cut_eq he]
    · rfl
  · rw [Region.leaveTurn, if_pos he]; rfl

/-- After DETACH's work its port has no part in the region. -/
theorem State.leaveTurn_not_involves {s : State} {p : Port} {r : RegionIx} {g : Region} (hg : s.slot r = some g)
    (hl : g.lawful) : ¬ (g.leaveTurn p r).region.involves p :=
  State.leaveRegion_not_involves (s := s) (r := r)
    (fun k hk => by obtain rfl : g = k := Option.some.inj (hg.symm.trans hk); exact hl)
    (by rw [State.leaveRegion_becomes hg hl, State.slot_becomes])

/-- The fence requests of a DETACH: one for each EXCLUSIVE hold, in ascending order of region (R39, R163). -/
theorem State.fences_leaveTurn (s : State) (p : Port) :
    (allRegions.flatMap fun r => (s.slot r).elim [] fun g => (g.leaveTurn p r).fences) =
      (List.finRange 32).filterMap fun r =>
        if ((s.slot r).bind fun g => g.holders.get p).map Hold.mode = some .exclusive then some (p, r) else none := by
  rw [List.filterMap_eq_flatMap_toList]
  congr 1
  funext r
  cases hg : s.slot r with
  | none => rfl
  | some g =>
    have hx : g.exclusiveBy p = true ↔ (g.holders.get p).map Hold.mode = some .exclusive := by simp [Region.exclusiveBy]
    by_cases he : g.exclusiveBy p = true
    · simp only [Option.elim_some, Region.leaveTurn, if_pos he, Option.bind_some, if_pos (hx.mp he)]
      rfl
    · simp only [Option.elim_some, Region.leaveTurn, if_neg he, Option.bind_some, if_neg (mt hx.mpr he), Region.cutTurn]
      split <;> rfl

section
variable {s : State} {p : Port}

theorem State.lockEvent_leaveAll (s : State) (p : Port) : s.LockEvent (s.leaveAll p) :=
  (State.foldl_regions (fun t r => State.regionEvent_leaveRegion t p r) allRegions_nodup s).1

/-- DETACH's work leaves the engine alone. -/
theorem State.engine_leaveAll (s : State) (p : Port) :
    (s.leaveAll p).jobQueue = s.jobQueue ∧ (s.leaveAll p).current = s.current ∧ (s.leaveAll p).starts = s.starts := by
  refine State.foldl_keeps (P := fun t => t.jobQueue = s.jobQueue ∧ t.current = s.current ∧ t.starts = s.starts)
    (fun t r ⟨h1, h2, h3⟩ => ?_) allRegions ⟨rfl, rfl, rfl⟩
  have c := State.continues_leaveRegion (A := fun _ => False) t p r
  exact ⟨c.jobQueue.trans h1, c.current.trans h2, c.starts.trans h3⟩

variable (hl : ∀ r g, s.slot r = some g → g.lawful)
include hl

/-- DETACH's work, region by region. -/
theorem State.leaveAll_turns :
    (∀ r, (s.leaveAll p).slot r = (s.slot r).map fun g => (g.leaveTurn p r).region) ∧
    (s.leaveAll p).fenceRequests = s.fenceRequests ++ (List.finRange 32).filterMap (fun r =>
      if ((s.slot r).bind fun g => g.holders.get p).map Hold.mode = some .exclusive then some (p, r) else none) ∧
    ∀ q, (s.leaveAll p).port q = (s.port q).offered (s.allNews (fun r g => g.leaveTurn p r) q) := by
  rw [← s.fences_leaveTurn p]
  exact State.foldl_turns (fun t r => State.regionEvent_leaveRegion t p r) (turn := fun r g => g.leaveTurn p r)
    (fun t r hn => by simp [State.leaveRegion, hn])
    (fun t r g _ hg ht => by rw [State.leaveRegion_becomes ht (hl r g hg)]; exact State.turns_becomes t r _)

theorem State.slot_leaveAll {r : RegionIx} {g : Region} (hg : s.slot r = some g) :
    (s.leaveAll p).slot r = some (g.leaveTurn p r).region := by
  rw [(State.leaveAll_turns hl).1, hg]
  rfl

/-- The port that leaves is offered nothing. -/
theorem State.port_leaveAll_self : (s.leaveAll p).port p = s.port p := by
  rw [(State.leaveAll_turns hl).2.2, State.allNews_eq_nil fun r g _ => Region.news_leaveTurn_eq_nil r (.inl rfl),
    PortIface.offered_nil]

/-- Another port takes its GRANTED records. -/
theorem State.port_leaveAll {q : Port} (hd : ∀ r g, s.slot r = some g → (s.port q).state = .detached → ¬ g.waits q)
    (hq : q ≠ p) : s.grantedOnly (s.leaveAll p) q := by
  have hslot := (State.leaveAll_turns (p := p) hl).1
  rw [State.grantedOnly, (State.leaveAll_turns hl).2.2, PortIface.offered_eq fun h =>
      State.allNews_eq_nil fun r g hg => Region.news_leaveTurn_eq_nil r (.inr (hd r g hg h)),
    State.allNews_eq_filterMap (fun r hn => State.newGrant_of_none hn)
      fun r g hg => State.newGrant_leaveTurn (hl r g hg) hg (State.slot_leaveAll hl hg) hq]

end

/-- Settles O10. -/
theorem detachDecided : Obligations.DetachDecided := by
  intro s p c hc hlaw
  have pass : ∀ k, (s.launched p (c.word 0x02#8)).whenAttached p k = k := fun k =>
    State.whenAttached_pass hc.2.1 ((s.launched_port_state p p _).trans hc.2.2)
  have hl : ∀ r g, (s.launched p (c.word 0x02#8)).slot r = some g → g.lawful := hlaw.1
  have event := (s.launched p (c.word 0x02#8)).lockEvent_leaveAll p
  have engine := (s.launched p (c.word 0x02#8)).engine_leaveAll p
  have turns := (State.leaveAll_turns (p := p) hl).1
  have fences := (State.leaveAll_turns (p := p) hl).2.1
  have slots := fun r g => State.slot_leaveAll (p := p) hl (r := r) (g := g)
  have self := State.port_leaveAll_self (p := p) hl
  have others := fun q => State.port_leaveAll (p := p) hl (q := q) fun r g hg hd =>
    (hlaw.2 r g q hg ((s.launched_port_state p q _).symm.trans hd)).2
  have decided := (launches_detach p c).decided hc.1 (x := .done) (pass _)
  change exec _ _ = .next (((((s.launched p (c.word 0x02#8)).leaveAll p).updPort p _).answered p _ _)) at decided
  generalize (s.launched p (c.word 0x02#8)).leaveAll p = v at *
  refine ⟨_, decided, ?_, ?_, fun q hq => ?_, fun r hn => ?_, fun r g hg hh hw => ?_,
    fun r g x hg hx hm => ?_, fun r g hg hpart => ?_, fun r g hg => ?_⟩
  · obtain ⟨hqueue, hcurrent, hstarts⟩ := engine
    have := event.eq
    rw [hqueue, hcurrent, hstarts, fences] at this
    rw [this]
    rfl
  · rw [State.answered, State.updPort_updPort, State.port_updPort_self, self, State.launched_port, if_pos rfl]
    rfl
  · exact (others q hq).congr (fun _ => rfl) (fun _ => rfl) (by rw [State.launched_port, if_neg hq])
      (by rw [State.answered, State.updPort_updPort, State.port_updPort_of_ne _ _ hq])
  · exact (turns r).trans (by rw [show (s.launched p (c.word 0x02#8)).slot r = none from hn]; rfl)
  · refine (slots r g hg).trans ?_
    have he : g.exclusiveBy p = false :=
      Region.exclusiveBy_eq_false fun x hx => absurd (Region.holds_iff.mpr ⟨x, hx⟩) hh
    rw [Region.leaveTurn_of_not_exclusive r he, Region.cutTurn_of_not_involves r fun h => h.elim hh hw]
  · refine (slots r g hg).trans ?_
    rw [Region.leaveTurn_of_exclusive r hx hm]
    rfl
  · refine (slots r g hg).trans ?_
    have hi : g.involves p := hpart.imp_left fun h =>
      let ⟨x, hx, _⟩ := Option.map_eq_some_iff.mp h
      Region.holds_iff.mpr ⟨x, hx⟩
    have he : g.exclusiveBy p = false := Region.exclusiveBy_eq_false fun x hx hm => by
      rcases hpart with h | hw
      · simp [hx, hm] at h
      · exact (hl r g hg).not_waits_of_hold hx hw
    rw [Region.leaveTurn_of_not_exclusive r he, Region.cutTurn_of_involves r hi, State.passed_eq]
  · have hi := State.leaveTurn_not_involves (p := p) hg (hl r g hg)
    have frame := g.leaveTurn_region_eq p r
    refine ⟨_, slots r g hg, fun h => hi (.inl h), fun h => hi (.inr h), ?_, ?_, ?_, ?_⟩ <;> rw [frame]

end Sys2Proof.Machine
end

section
/-! SUPPORT. The port reset: a port's part in each region cut, the automatic DIGEST jobs joining the engine, the
interface restored; and the obligation on PORT_RESET and EVICT (O18). -/

namespace Sys2Proof.Machine

/-! ### Jobs that join the engine one after another -/

/-- The sweep engine's jobs: queued, starts reported, in progress. -/
structure Engine where
  queue : List Job
  starts : List RegionIx
  current : Option Progress

def State.engine (s : State) : Engine := ⟨s.jobQueue, s.starts, s.current⟩

/-- A job for an extent joins: an IDLE engine with an empty queue starts it, another queues it (R93 to R95). -/
def Engine.join (part : PartState) (x : Engine) (j : Job × Extent) : Engine :=
  if part = .ready ∧ x.current = none ∧ x.queue = [] then ⟨[], x.starts ++ [j.1.region], some ⟨j.1, j.2, 0, crcStart⟩⟩
  else ⟨x.queue ++ [j.1], x.starts, x.current⟩

/-- Behind a busy engine jobs only queue. -/
theorem Engine.foldl_join_of_busy {part : PartState} (l : List (Job × Extent)) {x : Engine}
    (h : ¬ (part = .ready ∧ x.current = none ∧ x.queue = [])) :
    l.foldl (Engine.join part) x = ⟨x.queue ++ l.map Prod.fst, x.starts, x.current⟩ := by
  induction l generalizing x with
  | nil => simp
  | cons j l ih =>
    have hj : Engine.join part x j = ⟨x.queue ++ [j.1], x.starts, x.current⟩ := if_neg h
    rw [List.foldl_cons, hj, ih (by simp)]
    simp

/-- The state with a job joined to the engine. -/
def State.joined (s : State) (j : Job × Extent) : State :=
  { s with
    jobQueue := (s.engine.join s.part j).queue, starts := (s.engine.join s.part j).starts
    current := (s.engine.join s.part j).current }

/-- A job queued with its region's slot replaced: the job joins, and the slot is as it is. -/
theorem State.withJob_eq_joined (s : State) (r : RegionIx) (x : Option Region) (g : Region) (k : JobKind) (q : Option Port) :
    (s.setSlot r x).withJob r g k q =
      (s.joined (⟨k, r, q⟩, g.extent)).setSlot r (some { g with job := some ⟨k, false, q⟩ }) := by
  have hfree : (s.setSlot r x).engineFree ↔ (s.part = .ready ∧ s.engine.current = none ∧ s.engine.queue = []) := Iff.rfl
  by_cases h : (s.setSlot r x).engineFree
  · have hq : s.jobQueue = [] := h.2.2
    simp only [State.withJob, if_pos h, State.setSlot_setSlot, State.joined, Engine.join, if_pos (hfree.mp h)]
    simp only [State.setSlot, hq]
    rfl
  · simp only [State.withJob, if_neg h, State.setSlot_setSlot, State.joined, Engine.join, if_neg (mt hfree.mpr h)]
    rfl

/-- The jobs that have joined, as the engine of the state after them shows (R94, R95). -/
theorem State.jobsJoined_of_engine {s t : State} {l : List (Job × Extent)}
    (h : t.engine = l.foldl (Engine.join s.part) s.engine)
    (he : ∀ j ∈ l, (s.slot j.1.region).map Region.extent = some j.2) : s.jobsJoined t (l.map Prod.fst) := by
  have hfree : s.engineFree ↔ (s.part = .ready ∧ s.engine.current = none ∧ s.engine.queue = []) := Iff.rfl
  by_cases hf : s.engineFree
  · cases l with
    | nil =>
      obtain ⟨hq, hs, hc⟩ := Engine.mk.injEq .. ▸ h
      simp [State.jobsJoined, hq, hs, hc]
    | cons j l =>
      have hj : Engine.join s.part s.engine j = ⟨[], s.starts ++ [j.1.region], some ⟨j.1, j.2, 0, crcStart⟩⟩ :=
        if_pos (hfree.mp hf)
      rw [List.foldl_cons, hj, Engine.foldl_join_of_busy l (by simp)] at h
      obtain ⟨hq, hs, hc⟩ := Engine.mk.injEq .. ▸ h
      obtain ⟨g, hg, hx⟩ := Option.map_eq_some_iff.mp (he j List.mem_cons_self)
      simp only [State.jobsJoined, decide_eq_true hf, List.map_cons, hg, Option.map_some, hx]
      exact ⟨hq, hs, hc⟩
  · rw [Engine.foldl_join_of_busy l (mt hfree.mpr hf)] at h
    obtain ⟨hq, hs, hc⟩ := Engine.mk.injEq .. ▸ h
    simp only [State.jobsJoined, decide_eq_false hf]
    exact ⟨hq, hs, hc⟩

/-! ### A port's part in a region, cut -/

/-- The automatic DIGEST job that cutting a port's part in region `r` queues, with its extent (R68). -/
def Region.cutJob (g : Region) (p : Port) (r : RegionIx) : Option (Job × Extent) :=
  if g.autoJob p then some (⟨.digest, r, none⟩, g.extent) else none

/-- The state with the job, if there is one, joined. -/
def State.joinedIf (s : State) (j : Option (Job × Extent)) : State := j.elim s s.joined

section
variable {s : State} {p : Port} {r : RegionIx} {g : Region} {x : Hold}

theorem Region.cutJob_of_not_exclusive (h : g.exclusiveBy p = false) : g.cutJob p r = none := by
  refine if_neg ?_
  unfold Region.autoJob
  split
  · next x hx =>
    have : x.mode ≠ .exclusive := by simpa [Region.exclusiveBy, hx] using h
    simp [this]
  · simp

theorem Region.cutJob_of_exclusive (hx : g.holders.get p = some x) (hm : x.mode = .exclusive) :
    g.cutJob p r = if x.wrote && g.attrs.digestOnRelease then some (⟨.digest, r, none⟩, g.extent) else none := by
  simp [Region.cutJob, Region.autoJob, hx, hm]

/-- A drain that awaits nothing and is for a release is over at once (R67). -/
theorem State.decideDrain_endExclusive (s : State) (r : RegionIx) (g : Region) (p : Port) (e : EndedHold) :
    (s.setSlot r (some (g.endExclusive p e (.all false)))).decideDrain r =
      (s.setSlot r (some (g.endExclusive p e (.all false)))).settle r (g.endExclusive p e (.all false)) e := by
  unfold State.decideDrain
  rw [State.slot_setSlot_self]
  rfl

/-- The settle of an EXCLUSIVE hold that a reset revokes leaves its region cut, its job joined (R44, R68). -/
theorem State.cutRegion_of_exclusive (hg : s.slot r = some g) (hl : g.lawful) (hx : g.holders.get p = some x)
    (hm : x.mode = .exclusive) :
    s.cutRegion p r = ((s.joinedIf (g.cutJob p r)).setSlot r (some (g.cut p))).grantPass r := by
  have hq := Region.filter_queue_of_not_waits (hl.not_waits_of_hold hx)
  have hcut : s.cutRegion p r = (s.setSlot r (some (g.endExclusive p ⟨x.wrote, true⟩ (.all false)))).decideDrain r := by
    simp [State.cutRegion, hg, hx, hm]
  rw [hcut, State.decideDrain_endExclusive, State.settle, State.setSlot_setSlot, Region.cutJob_of_exclusive hx hm]
  congr 1
  by_cases hj : (x.wrote && g.attrs.digestOnRelease) = true
  · have hauto : g.autoJob p = true := by simpa [Region.autoJob, hx, hm] using hj
    have hslot :
        (s.setSlot r (some ((g.endExclusive p ⟨x.wrote, true⟩ (.all false)).settled ⟨x.wrote, true⟩))).slot r = _ :=
      State.slot_setSlot_self _ _ _
    have hdigest : ∀ u : State, u.autoDigest r (g.endExclusive p ⟨x.wrote, true⟩ (.all false)) ⟨x.wrote, true⟩ =
        u.queueJob r .digest none := fun u => if_pos hj
    rw [hdigest, State.queueJob_of_slot _ _ hslot, State.withJob_eq_joined, if_pos hj]
    simp only [Region.cut, hx, hm, hq, hauto]
    rfl
  · have hauto : g.autoJob p = false := by simpa [Region.autoJob, hx, hm] using hj
    have hdigest : ∀ u : State, u.autoDigest r (g.endExclusive p ⟨x.wrote, true⟩ (.all false)) ⟨x.wrote, true⟩ = u :=
      fun u => if_neg hj
    rw [hdigest, if_neg hj]
    simp only [Region.cut, hx, hm, hq, hauto]
    rfl

/-- Cutting a port's part in a lawful region (R44, R165). -/
theorem State.cutRegion_becomes (hg : s.slot r = some g) (hl : g.lawful) :
    s.cutRegion p r = (s.joinedIf (g.cutJob p r)).becomes r (g.cutTurn p r).region [] (g.cutTurn p r).news := by
  rcases hx : g.holders.get p with _ | x
  · have hh : ¬ g.holds p := by simp [Region.holds, hx]
    rw [Region.cutJob_of_not_exclusive (Region.exclusiveBy_eq_false (by simp [hx]))]
    by_cases hw : g.waits p
    · have : s.cutRegion p r = (s.setSlot r (some (g.withdraw p))).grantPass r := by
        simp [State.cutRegion, hg, hx, Region.waitsFor_iff.mpr hw]
      rw [this, Region.cutTurn_of_involves r (.inr hw), State.setSlot_becomes, State.grantPass_of_becomes,
        ← Region.cut_of_not_holds hx]
      rfl
    · have : s.cutRegion p r = s := by
        simp [State.cutRegion, hg, hx, mt Region.waitsFor_iff.mp hw]
      rw [this, Region.cutTurn_of_not_involves r fun h => h.elim hh hw]
      exact State.self_becomes hg
  · rw [Region.cutTurn_of_involves r (.inl (Region.holds_iff.mpr ⟨x, hx⟩))]
    cases hm : x.mode
    · have : s.cutRegion p r = (s.setSlot r (some (g.endShared p))).grantPass r := by simp [State.cutRegion, hg, hx, hm]
      rw [this, Region.cutJob_of_not_exclusive (Region.exclusiveBy_eq_false (by simp [hx, hm])),
        ← Region.cut_of_shared hl hx hm, State.setSlot_becomes, State.grantPass_of_becomes]
      rfl
    · rw [State.cutRegion_of_exclusive hg hl hx hm, State.setSlot_becomes, State.grantPass_of_becomes]
      rfl

theorem State.turns_cutRegion (hg : s.slot r = some g) (hl : g.lawful) : s.Turns (s.cutRegion p r) r (g.cutTurn p r) := by
  have hport : ∀ q, (s.joinedIf (g.cutJob p r)).port q = s.port q := by cases g.cutJob p r <;> exact fun _ => rfl
  have hfences : (s.joinedIf (g.cutJob p r)).fenceRequests = s.fenceRequests := by cases g.cutJob p r <;> rfl
  have hnone : (g.cutTurn p r).fences = [] := by unfold Region.cutTurn; split <;> rfl
  rw [State.cutRegion_becomes hg hl]
  exact ⟨State.slot_becomes .., by rw [State.fenceRequests_becomes, hfences, hnone],
    fun q => by rw [State.port_becomes, hport]⟩

theorem State.engine_cutRegion (hg : s.slot r = some g) (hl : g.lawful) :
    (s.cutRegion p r).engine = (g.cutJob p r).elim s.engine (s.engine.join s.part) := by
  rw [State.cutRegion_becomes hg hl]
  cases g.cutJob p r <;> rfl

end

/-! ### The whole table -/

/-- The lock engine's part of a port reset (R165). -/
def State.cutAll (s : State) (p : Port) : State := allRegions.foldl (fun t r => t.cutRegion p r) s

section
variable {s : State} {p : Port}

theorem State.cutRegion_of_none {r : RegionIx} (h : s.slot r = none) : s.cutRegion p r = s := by
  simp [State.cutRegion, h]

theorem State.lockEvent_cutAll (s : State) (p : Port) : s.LockEvent (s.cutAll p) :=
  (State.foldl_regions (fun t r => State.regionEvent_cutRegion t p r) allRegions_nodup s).1

/-- The automatic DIGEST jobs of a port reset, with their extents. -/
def State.cutJobs (s : State) (p : Port) : List (Job × Extent) :=
  allRegions.filterMap fun r => (s.slot r).bind fun g => g.cutJob p r

theorem State.map_cutJobs (s : State) (p : Port) : (s.cutJobs p).map Prod.fst = s.autoJobs p := by
  rw [State.cutJobs, List.map_filterMap]
  congr 1
  funext r
  cases s.slot r with
  | none => rfl
  | some g => cases h : g.autoJob p <;> simp [Region.cutJob, h]

theorem State.extent_of_mem_cutJobs {j : Job × Extent} (h : j ∈ s.cutJobs p) :
    (s.slot j.1.region).map Region.extent = some j.2 := by
  obtain ⟨r, -, hr⟩ := List.mem_filterMap.mp h
  obtain ⟨g, hg, hj⟩ := Option.bind_eq_some_iff.mp hr
  simp only [Region.cutJob, Option.ite_none_right_eq_some, Option.some.injEq] at hj
  rw [← hj.2, hg]
  rfl

variable (hl : ∀ r g, s.slot r = some g → g.lawful)
include hl

/-- The lock engine's part of a port reset, region by region. -/
theorem State.cutAll_turns :
    (∀ r, (s.cutAll p).slot r = (s.slot r).map fun g => (g.cutTurn p r).region) ∧
    (s.cutAll p).fenceRequests =
      s.fenceRequests ++ allRegions.flatMap (fun r => (s.slot r).elim [] fun g => (g.cutTurn p r).fences) ∧
    ∀ q, (s.cutAll p).port q = (s.port q).offered (s.allNews (fun r g => g.cutTurn p r) q) :=
  State.foldl_turns (fun t r => State.regionEvent_cutRegion t p r) (turn := fun r g => g.cutTurn p r)
    (fun _ _ => State.cutRegion_of_none) fun _ r g _ hg ht => State.turns_cutRegion ht (hl r g hg)

theorem State.slot_cutAll {r : RegionIx} {g : Region} (hg : s.slot r = some g) :
    (s.cutAll p).slot r = some (g.cutTurn p r).region := by
  rw [(State.cutAll_turns hl).1, hg]
  rfl

/-- A port reset requests no fence. -/
theorem State.fenceRequests_cutAll : (s.cutAll p).fenceRequests = s.fenceRequests := by
  rw [(State.cutAll_turns hl).2.1, List.flatMap_eq_nil_iff.mpr, List.append_nil]
  intro r _
  cases s.slot r with
  | none => rfl
  | some g => simp only [Option.elim_some, Region.cutTurn]; split <;> rfl

/-- The port that is reset is offered nothing. -/
theorem State.port_cutAll_self : (s.cutAll p).port p = s.port p := by
  rw [(State.cutAll_turns hl).2.2, State.allNews_eq_nil fun r g _ => Region.news_cutTurn_eq_nil r (.inl rfl),
    PortIface.offered_nil]

/-- Another port takes its GRANTED records. -/
theorem State.port_cutAll {q : Port} (hd : ∀ r g, s.slot r = some g → (s.port q).state = .detached → ¬ g.waits q)
    (hq : q ≠ p) : s.grantedOnly (s.cutAll p) q := by
  rw [State.grantedOnly, (State.cutAll_turns hl).2.2, PortIface.offered_eq fun h =>
      State.allNews_eq_nil fun r g hg => Region.news_cutTurn_eq_nil r (.inr (hd r g hg h)),
    State.allNews_eq_filterMap (fun r hn => State.newGrant_of_none hn)
      fun r g hg => State.newGrant_cutTurn (hl r g hg) hg (State.slot_cutAll hl hg) hq]

/-- The automatic DIGEST jobs join the engine in ascending order of region (R68, R165). -/
theorem State.jobs_cutAll : s.jobsJoined (s.cutAll p) (s.autoJobs p) := by
  rw [← State.map_cutJobs]
  refine State.jobsJoined_of_engine ?_ fun j => State.extent_of_mem_cutJobs
  rw [State.cutJobs, List.foldl_filterMap]
  refine State.foldl_view (fun t r => State.regionEvent_cutRegion t p r) (view := State.engine) (fun t r ht hslot => ?_)
    allRegions_nodup
  cases hg : s.slot r with
  | none => rw [State.cutRegion_of_none (hslot.trans hg)]; rfl
  | some g =>
    rw [State.engine_cutRegion (hslot.trans hg) (hl r g hg), ht.part, Option.bind_some]
    cases g.cutJob p r <;> rfl

end

/-! ### The port reset -/

theorem PortIface.restored_eq (i : PortIface) (overtaken : Option Instr) : i.restored overtaken = i.resetValues overtaken := by
  have hbus : i.busAtReset overtaken = (i.resetValues overtaken).bus := by
    rcases hb : i.blocking with _ | (_ | _) <;> simp only [PortIface.busAtReset, PortIface.resetValues, hb]
    · cases i.held <;> cases overtaken <;> rfl
    · rfl
  rw [PortIface.restored, hbus]
  rfl

/-- A port reset in a lawful table, whole (R44, R64, R68, R135, R165). -/
theorem State.resetPort_leaves {s : State} (p : Port) (overtaken : Option Instr)
    (hl : ∀ r g, s.slot r = some g → g.lawful)
    (hd : ∀ r g q, s.slot r = some g → (s.port q).state = .detached → ¬ g.waits q) :
    (s.resetPort p overtaken).port p = (s.port p).resetValues overtaken ∧
      s.othersAfterReset (s.resetPort p overtaken) p := by
  have hl : ∀ r g, ((s.reportMarks p).updPort p fun i => i.restored overtaken).slot r = some g → g.lawful := hl
  have self := State.port_cutAll_self (p := p) hl
  have turns := (State.cutAll_turns (p := p) hl).1
  have slots := fun r g => State.slot_cutAll (p := p) hl (r := r) (g := g)
  have jobs := State.jobs_cutAll (p := p) hl
  have fences := State.fenceRequests_cutAll (p := p) hl
  have others := fun q (hq : q ≠ p) => State.port_cutAll (p := p) hl (q := q)
    (fun r g hg hs => hd r g q hg (by rw [State.port_updPort_of_ne _ _ hq] at hs; exact hs)) hq
  have event := ((s.reportMarks p).updPort p fun i => i.restored overtaken).lockEvent_cutAll p
  change (((s.reportMarks p).updPort p _).cutAll p).port p = _ ∧
    s.othersAfterReset (((s.reportMarks p).updPort p _).cutAll p) p
  generalize ((s.reportMarks p).updPort p fun i => i.restored overtaken).cutAll p = t at *
  refine ⟨?_, ?_, fun r hn => ?_, fun r g hg hh hw => ?_, fun r g hg hi => ?_, jobs, fun q hq => ?_⟩
  · rw [self, State.port_updPort_self, ← PortIface.restored_eq]
    rfl
  · have := event.eq
    rw [fences] at this
    rw [this]
    rfl
  · exact (turns r).trans (by rw [show ((s.reportMarks p).updPort p _).slot r = none from hn]; rfl)
  · rw [slots r g hg, Region.cutTurn_of_not_involves r fun h => h.elim hh hw]
  · rw [slots r g hg, Region.cutTurn_of_involves r hi, State.passed_eq]
  · exact (others q hq).congr (fun _ => rfl) (fun _ => rfl) (by rw [State.port_updPort_of_ne _ _ hq]; rfl) rfl

/-- What a port reset leaves beside its port's interface does not depend on that interface, its marks apart. -/
theorem State.othersAfterReset_of_updPort {s t : State} {p : Port} {f : PortIface → PortIface}
    (hf : (f (s.port p)).fences = (s.port p).fences) (h : (s.updPort p f).othersAfterReset t p) : s.othersAfterReset t p := by
  obtain ⟨heq, hnone, hkeep, hcut, hjobs, hothers⟩ := h
  rw [State.port_updPort_self, hf] at heq
  refine ⟨heq, hnone, hkeep, fun r g hg hi => (hcut r g hg hi).trans ?_, hjobs, fun q hq =>
    (hothers q hq).congr (fun _ => rfl) (fun _ => rfl) (State.port_updPort_of_ne s f hq).symm rfl⟩
  rw [State.passed_eq, State.passed_eq]

/-! ### PORT_RESET and EVICT -/

/-- A command writes CMD on port `p` when it is a full write of that word there (R175). -/
theorem writesCmd_iff (c : Instr) (p : Port) :
    c.writesCmd p = true ↔ c.wf = true ∧ ∃ v, encodeBus c = some (p, .write 0x001#14 15#4 v) := by
  unfold Instr.writesCmd
  split <;> simp_all [and_assoc]

/-- Of the commands behind a PORT_RESET the first alone can be on its port's bus (R166, log entry 22). -/
theorem State.cmdOnBus_take_one {s : State} {p : Port} (h : s.served p = true) :
    s.cmdOnBus p (s.pending.take 1) = s.pending.head?.filter fun c => c.writesCmd p && !(s.port p).busHeld := by
  cases s.pending with
  | nil => simp [State.cmdOnBus]
  | cons c l =>
    cases hb : (s.port p).busHeld <;> cases hc : c.writesCmd p <;>
      simp [State.cmdOnBus, h, hb, hc, Option.filter]

/-- A line set to the level it has. -/
theorem State.setLine_self {s : State} {p : Port} {b : Bool} (h : (s.port p).resetLow = b) : s.setLine p b = s := by
  refine State.eq_of_port rfl fun q => ?_
  by_cases hq : q = p
  · subst hq
    rw [State.setLine, State.port_updPort_self, ← h]
  · rw [State.setLine, State.port_updPort_of_ne _ _ hq]

/-- PnRST_n falling while RST_n is high is a port reset (R165, R166). -/
theorem exec_portReset {s : State} {p : Port} (hr : s.rstLow = false) (hp : (s.port p).resetLow = false) :
    exec (.portReset p) s = .next ((s.setLine p true).resetPort p
      (s.pending.head?.filter fun c => c.writesCmd p && !(s.port p).busHeld)) := by
  rw [← State.cmdOnBus_take_one (by simp [State.served, hr, hp])]
  change Host.Outcome.next _ = _
  rw [if_neg (by simp [hp]), if_neg (by simp [hr])]

/-- Settles O18. -/
theorem portResetAndEvict : Obligations.PortResetAndEvict := by
  refine ⟨writesCmd_iff, fun s p hlaw => ⟨fun hr hp => ?_, fun hr => ?_, fun hp => ?_, fun c hc =>
    ⟨fun ht => ?_, fun ht => ?_⟩⟩⟩
  · have hreset := State.resetPort_leaves (s := s.setLine p true) p
      (s.pending.head?.filter fun c => c.writesCmd p && !(s.port p).busHeld) hlaw.1 fun r g q hg hd => (hlaw.2 r g q hg ?_).2
    · refine ⟨_, exec_portReset hr hp, ?_, State.othersAfterReset_of_updPort rfl hreset.2⟩
      rw [hreset.1, State.setLine, State.port_updPort_self]
      rfl
    · by_cases hq : q = p
      · subst hq
        rwa [State.setLine, State.port_updPort_self] at hd
      · rwa [State.setLine, State.port_updPort_of_ne _ _ hq] at hd
  · change Host.Outcome.next _ = _
    by_cases hp : (s.port p).resetLow = true
    · rw [if_pos hp]
      exact congrArg _ (State.setLine_self hp).symm
    · rw [if_neg hp, if_pos hr]
      rfl
  · change Host.Outcome.next _ = _
    rw [if_pos hp]
  all_goals
    have pass : ∀ k, (s.launched p (c.word 0x44#8)).asSupervisor p k = k := fun k =>
      State.asSupervisor_pass hc.1.2.1 ((s.launched_port_state p p _).trans hc.1.2.2) hc.2
  · refine (launches_evict p c).refused hc.1.1 (x := .notPermitted) ?_
    rw [decideEvict, pass, if_pos ht]
  · have hreset := State.resetPort_leaves (s := s.launched p (c.word 0x44#8)) c.target none hlaw.1
      fun r g q hg hd => (hlaw.2 r g q hg ((s.launched_port_state p q _).symm.trans hd)).2
    refine ⟨_, (launches_evict p c).decided hc.1.1 (x := .done) (by rw [decideEvict, pass, if_neg ht]), ?_, hreset.2⟩
    rw [hreset.1, State.launched_port, if_neg ht]

end Sys2Proof.Machine
end

section
/-! SUPPORT. A tick in one region, port by port: counts, warnings, expiries and the pass; and the obligation on the tick
(O42). -/

namespace Sys2Proof.Machine

/-! ### Port by port -/

/-- An operation done port by port on one region, each port's own reading that port's hold and changing it alone. -/
theorem State.foldl_ports_becomes {r : RegionIx} {op : State → Port → State} {K : Region → Port → Region}
    {F : Port → Option Hold → List (Port × RegionIx)} {M : Port → Option Hold → List Record} {s : State}
    (hop : ∀ t k p, s.LockEvent t → t.slot r = some k →
      op t p = t.becomes r (K k p) (F p (k.holders.get p)) (recordsFor p (M p (k.holders.get p))))
    (hK : ∀ k p q, q ≠ p → (K k p).holders.get q = k.holders.get q) {l : List Port} (hl : l.Nodup) {t : State} {g : Region}
    (ht : s.LockEvent t) (hg : t.slot r = some g) :
    l.foldl op t = t.becomes r (l.foldl K g) (l.flatMap fun p => F p (g.holders.get p))
      fun q => if q ∈ l then M q (g.holders.get q) else [] := by
  induction l generalizing t g with
  | nil => exact State.self_becomes hg
  | cons p l ih =>
    obtain ⟨hp, hl⟩ := List.nodup_cons.mp hl
    have hne : ∀ q ∈ l, q ≠ p := fun q hq e => hp (e ▸ hq)
    rw [List.foldl_cons, hop t g p ht hg, ih hl (ht.trans (State.regionEvent_becomes ..).toLockEvent) (State.slot_becomes ..),
      State.becomes_becomes, List.foldl_cons, List.flatMap_cons]
    congr 1
    · exact congrArg _ (List.flatMap_congr fun q hq => by rw [hK _ _ _ (hne q hq)])
    · funext q
      by_cases hq : q = p
      · subst hq; simp [hp]
      · by_cases hm : q ∈ l <;> simp [recordsFor_of_ne _ hq, hq, hm, hK _ _ _ hq]

/-! ### Counts and warnings -/

/-- The hold after a tick's count at a port with threshold `w`: warned where it came down on it (R46, R49). -/
def Hold.down (x : Hold) (w : Half) : Hold := { x.tick with warned := x.warned || x.tick.warns w }

/-- The LEASE_WARNING record of a hold at a tick (R49). -/
def warnNews (r : RegionIx) (w : Half) (x : Option Hold) : List Record :=
  if x.any fun x => x.tick.warns w then [.leaseWarning r w] else []

/-- The region with every count down (R46). -/
def Region.counted (g : Region) (w : Port → Half) : Region :=
  { g with holders := .ofFun fun p => (g.holders.get p).map fun x => x.down (w p) }

/-- The region with port `p`'s count down. -/
def Region.countAt (w : Port → Half) (g : Region) (p : Port) : Region :=
  { g with holders := g.holders.set p ((g.holders.get p).map fun x => x.down (w p)) }

theorem Region.foldl_countAt (w : Port → Half) (g : Region) : allPorts.foldl (Region.countAt w) g = g.counted w := rfl

theorem State.tickHold_becomes {s : State} {r : RegionIx} {k : Region} {p : Port} {w : Port → Half}
    (hk : s.slot r = some k) (hw : (s.port p).lwarn = w p) :
    s.tickHold r p = s.becomes r (k.countAt w p) [] (recordsFor p (warnNews r (w p) (k.holders.get p))) := by
  rcases hx : k.holders.get p with _ | x
  · have hsame : k.countAt w p = k := by
      have : k.holders.set p none = k.holders := by rw [← hx, PerPort.set_get]
      simp only [Region.countAt, hx, Option.map_none, this]
    have hnews : recordsFor p (warnNews r (w p) none) = noNews := funext fun q => ite_self _
    rw [hsame, hnews, ← State.self_becomes hk]
    simp [State.tickHold, hk, hx]
  · cases hwarns : x.tick.warns (w p)
    · have hdown : x.down (w p) = x.tick := by rw [Hold.down, hwarns, Bool.or_false]; rfl
      have hnews : recordsFor p (warnNews r (w p) (some x)) = noNews := funext fun q => by
        simp [recordsFor, warnNews, hwarns, noNews]
      rw [hnews, ← State.setSlot_becomes]
      simp [State.tickHold, hk, hx, hw, hwarns, Region.countAt, hdown]
    · have hdown : x.down (w p) = { x.tick with warned := true } := by rw [Hold.down, hwarns, Bool.or_true]
      have htick : s.tickHold r p = (s.setSlot r (some (k.countAt w p))).offer p (.leaseWarning r (w p)) := by
        simp [State.tickHold, hk, hx, hw, hwarns, Region.countAt, hdown]
      rw [htick, State.setSlot_becomes, State.offer_becomes (State.slot_becomes ..), State.becomes_becomes]
      simp [warnNews, hwarns, noNews]

theorem State.foldl_tickHold {s : State} {r : RegionIx} {g : Region} {w : Port → Half} (hg : s.slot r = some g)
    (hw : ∀ p, (s.port p).lwarn = w p) :
    allPorts.foldl (fun t p => t.tickHold r p) s =
      s.becomes r (g.counted w) [] fun q => warnNews r (w q) (g.holders.get q) := by
  rw [State.foldl_ports_becomes (s := s) (K := Region.countAt w) (F := fun _ _ => []) (M := fun p => warnNews r (w p))
    (fun t k p ht hk => State.tickHold_becomes hk (by rw [ht.port p]; exact hw p))
    (fun k p q hq => PerPort.get_set_of_ne _ _ hq) allPorts_nodup (State.LockEvent.refl s) hg, Region.foldl_countAt]
  congr 1
  funext q
  exact if_pos (mem_allPorts q)

/-! ### Expiry -/

/-- The region after the expiry of port `p`'s hold, if its count is 0 (R52 to R54). -/
def Region.expireAt (g : Region) (p : Port) : Region :=
  match g.holders.get p with
  | none => g
  | some x =>
    if x.expired then
      match x.mode with
      | .shared => g.endShared p
      | .exclusive => g.endExclusive p ⟨x.wrote, true⟩ (onlyPort p)
    else g

/-- The fence request of a hold's expiry (R39, R54). -/
def expiryFences (r : RegionIx) (p : Port) (x : Option Hold) : List (Port × RegionIx) :=
  if x.any fun x => x.expired && x.mode = .exclusive then [(p, r)] else []

/-- The REVOKED record of a hold's expiry (R52). -/
def expiryNews (r : RegionIx) (x : Option Hold) : List Record :=
  match x with
  | none => []
  | some x => if x.expired then [.revoked r x.mode.leaseRight .lease] else []

section
variable {g : Region} {p q : Port} {x : Hold}

theorem Region.expireAt_of_not_expired (h : ∀ x, g.holders.get p = some x → x.expired = false) : g.expireAt p = g := by
  unfold Region.expireAt
  split
  · rfl
  · next x hx => rw [h x hx]; rfl

theorem Region.expireAt_of_shared (hx : g.holders.get p = some x) (he : x.expired = true) (hm : x.mode = .shared) :
    g.expireAt p = g.endShared p := by simp [Region.expireAt, hx, he, hm]

theorem Region.expireAt_of_exclusive (hx : g.holders.get p = some x) (he : x.expired = true) (hm : x.mode = .exclusive) :
    g.expireAt p = g.endExclusive p ⟨x.wrote, true⟩ (onlyPort p) := by simp [Region.expireAt, hx, he, hm]

/-- What an expiry changes of its region: the port's hold and the state. -/
theorem Region.expireAt_eq (g : Region) (p : Port) :
    g.expireAt p = { g with
      holders := g.holders.set p ((g.holders.get p).filter fun x => !x.expired), state := (g.expireAt p).state } := by
  have hset : ∀ y, g.holders.get p = y → g.holders.set p y = g.holders := fun y hy => by rw [← hy, PerPort.set_get]
  rcases hx : g.holders.get p with _ | x
  · rw [Region.expireAt_of_not_expired (by simp [hx])]
    simp [hset none hx]
  · cases he : x.expired
    · rw [Region.expireAt_of_not_expired (by simp [hx, he])]
      simp [Option.filter, he, hset _ hx]
    · cases hm : x.mode
      · rw [Region.expireAt_of_shared hx he hm]
        simp [Option.filter, he, Region.endShared, Region.dropHold]
      · rw [Region.expireAt_of_exclusive hx he hm]
        simp [Option.filter, he, Region.endExclusive, Region.dropHold]

theorem Region.get_expireAt_of_ne (h : q ≠ p) : (g.expireAt p).holders.get q = g.holders.get q := by
  rw [Region.expireAt_eq, PerPort.get_set_of_ne _ _ h]

end

theorem State.expireHold_becomes {s : State} {r : RegionIx} {k : Region} {p : Port} (hk : s.slot r = some k) :
    s.expireHold r p = s.becomes r (k.expireAt p) (expiryFences r p (k.holders.get p))
      (recordsFor p (expiryNews r (k.holders.get p))) := by
  have none_offered : recordsFor p [] = noNews := funext fun q => ite_self _
  rcases hx : k.holders.get p with _ | x
  · rw [Region.expireAt_of_not_expired (by simp [hx]), show expiryNews r none = [] from rfl, none_offered,
      show expiryFences r p none = [] from rfl, ← State.self_becomes hk]
    simp [State.expireHold, hk, hx]
  · cases he : x.expired
    · have hf : expiryFences r p (some x) = [] := by simp [expiryFences, he]
      have hn : expiryNews r (some x) = [] := by simp [expiryNews, he]
      rw [Region.expireAt_of_not_expired (by simp [hx, he]), hf, hn, none_offered, ← State.self_becomes hk]
      simp [State.expireHold, hk, hx, he]
    · have hn : expiryNews r (some x) = [.revoked r x.mode.leaseRight .lease] := by simp [expiryNews, he]
      have hexpire : s.expireHold r p = (s.offer p (.revoked r x.mode.leaseRight .lease)).endHold r p true := by
        simp [State.expireHold, hk, hx, he]
      have hk' : (s.offer p (.revoked r x.mode.leaseRight .lease)).slot r = some k := hk
      rw [hexpire, hn]
      rcases State.endHold_of_hold true hk' hx with ⟨hm, h⟩ | ⟨hm, h⟩ <;>
        rw [h, State.offer_becomes hk, State.setSlot_becomes, State.becomes_becomes]
      · have hf : expiryFences r p (some x) = [] := by simp [expiryFences, hm]
        rw [hf, Region.expireAt_of_shared hx he hm]
        simp [noNews]
      · have hf : expiryFences r p (some x) = [(p, r)] := by simp [expiryFences, he, hm]
        rw [hf, Region.expireAt_of_exclusive hx he hm, State.sendFence_becomes (State.slot_becomes ..), State.becomes_becomes]
        simp [noNews]

theorem State.foldl_expireHold {s : State} {r : RegionIx} {g : Region} (hg : s.slot r = some g) :
    allPorts.foldl (fun t p => t.expireHold r p) s =
      s.becomes r (allPorts.foldl Region.expireAt g) (allPorts.flatMap fun p => expiryFences r p (g.holders.get p))
        fun q => expiryNews r (g.holders.get q) := by
  rw [State.foldl_ports_becomes (s := s) (K := Region.expireAt) (F := expiryFences r) (M := fun _ => expiryNews r)
    (fun t k p _ hk => State.expireHold_becomes hk) (fun k p q => Region.get_expireAt_of_ne) allPorts_nodup
    (State.LockEvent.refl s) hg]
  congr 1
  funext q
  exact if_pos (mem_allPorts q)

/-! ### The region after the expiries -/

section
variable {l : List Port} {g : Region} {p : Port} {x : Hold}

theorem Region.foldl_expireAt_of_not_expired (h : ∀ p ∈ l, ∀ x, g.holders.get p = some x → x.expired = false) :
    l.foldl Region.expireAt g = g := by
  induction l with
  | nil => rfl
  | cons p l ih =>
    obtain ⟨hp, hl⟩ := List.forall_mem_cons.mp h
    rw [List.foldl_cons, Region.expireAt_of_not_expired hp, ih hl]

/-- The expiries change holders and state, and nothing else. -/
theorem Region.foldl_expireAt_eq (l : List Port) (g : Region) :
    l.foldl Region.expireAt g =
      { g with holders := (l.foldl Region.expireAt g).holders, state := (l.foldl Region.expireAt g).state } := by
  suffices H : ∃ hs st, l.foldl Region.expireAt g = { g with holders := hs, state := st } by
    obtain ⟨hs, st, h⟩ := H
    rw [h]
  induction l generalizing g with
  | nil => exact ⟨g.holders, g.state, rfl⟩
  | cons p l ih =>
    obtain ⟨hs, st, h⟩ := ih (g.expireAt p)
    refine ⟨hs, st, h.trans ?_⟩
    rw [Region.expireAt_eq]

/-- The holds left are those whose count is not 0. -/
theorem Region.get_foldl_expireAt (l : List Port) (g : Region) (q : Port) :
    (l.foldl Region.expireAt g).holders.get q =
      if q ∈ l then (g.holders.get q).filter fun x => !x.expired else g.holders.get q := by
  induction l generalizing g with
  | nil => rfl
  | cons p l ih =>
    rw [List.foldl_cons, ih, Region.expireAt_eq]
    by_cases hq : q = p
    · subst hq
      rw [PerPort.get_set_self, if_pos List.mem_cons_self]
      rcases g.holders.get q with _ | x
      · exact ite_self _
      · cases he : x.expired <;> simp [Option.filter, he]
    · simp [hq, PerPort.get_set_of_ne _ _ hq]

/-- Where all holds are SHARED, the last expiry finds the region with holders or without (R38, R53). -/
theorem Region.state_foldl_expireAt_shared (h : ∀ p x, g.holders.get p = some x → x.mode = .shared)
    (he : ∃ p ∈ l, ∃ x, g.holders.get p = some x ∧ x.expired = true) :
    (l.foldl Region.expireAt g).state = if (l.foldl Region.expireAt g).held then .shared else .free := by
  induction l generalizing g with
  | nil => simp at he
  | cons p l ih =>
    have hg : ∀ q y, (g.expireAt p).holders.get q = some y → y.mode = .shared := fun q y hy => by
      by_cases hq : q = p
      · subst hq
        rw [Region.expireAt_eq, PerPort.get_set_self] at hy
        exact h q y (Option.filter_eq_some_iff.mp hy).1
      · rw [Region.get_expireAt_of_ne hq] at hy
        exact h q y hy
    by_cases hl : ∃ q ∈ l, ∃ y, (g.expireAt p).holders.get q = some y ∧ y.expired = true
    · exact ih hg hl
    · have hsame : l.foldl Region.expireAt (g.expireAt p) = g.expireAt p :=
        Region.foldl_expireAt_of_not_expired fun q hq y hy =>
          Bool.eq_false_iff.mpr fun hy' => hl ⟨q, hq, y, hy, hy'⟩
      obtain ⟨q, hq, y, hy, hye⟩ := he
      obtain rfl : q = p := by
        by_contra hne
        exact hl ⟨q, (List.mem_cons.mp hq).resolve_left hne, y, by rwa [Region.get_expireAt_of_ne hne], hye⟩
      rw [List.foldl_cons, hsame, Region.expireAt_of_shared hy hye (h q y hy)]
      rfl

/-- The only hold, EXCLUSIVE and with its count at 0, drains as revoked (R39, R54). -/
theorem Region.state_foldl_expireAt_exclusive (hx : g.holders.get p = some x) (he : x.expired = true)
    (hm : x.mode = .exclusive) (honly : ∀ q, g.holds q → q = p) (hp : p ∈ l) :
    (l.foldl Region.expireAt g).state = .draining ⟨.release ⟨x.wrote, true⟩, onlyPort p⟩ := by
  induction l with
  | nil => cases hp
  | cons a l ih =>
    by_cases ha : a = p
    · subst ha
      rw [List.foldl_cons, Region.expireAt_of_exclusive hx he hm, Region.foldl_expireAt_of_not_expired]
      · rfl
      · intro q _ y hy
        obtain ⟨hne, hy⟩ := Region.get_dropHold hy
        exact absurd (honly q (Region.holds_iff.mpr ⟨y, hy⟩)) hne
    · rw [List.foldl_cons, Region.expireAt_of_not_expired fun y hy => absurd (honly a (Region.holds_iff.mpr ⟨y, hy⟩)) ha]
      exact ih ((List.mem_cons.mp hp).resolve_left (Ne.symm ha))

end

/-! ### The hold at a tick -/

section
variable {x : Hold} {w : Half}

theorem tickDown_of_ne_zero {n : Half} (h : n ≠ 0#16) : tickDown n = n - 1#16 := if_neg h

theorem sub_one_eq_zero_iff (n : Half) : n - 1#16 = 0#16 ↔ n = 1#16 := by
  constructor <;> intro h <;> bv_omega

/-- A count that is not 0 comes to 0 at the tick exactly from 1 (R46, R52). -/
theorem Hold.expired_down (h0 : x.remaining ≠ some 0#16) : (x.down w).expired = x.lastTick := by
  rcases hr : x.remaining with _ | n
  · simp [Hold.expired, Hold.down, Hold.tick, Hold.lastTick, hr]
  · have hn : n ≠ 0#16 := fun e => h0 (e ▸ hr)
    rw [Bool.eq_iff_iff]
    simp [Hold.expired, Hold.down, Hold.tick, Hold.lastTick, hr, tickDown_of_ne_zero hn, sub_one_eq_zero_iff]

/-- The warning of a leased hold at a tick (R49). -/
theorem Hold.warns_tick {n : Half} (hr : x.remaining = some n) (hn : n ≠ 0#16) :
    x.tick.warns w = true ↔ n - 1#16 = w ∧ w ≠ 0#16 ∧ x.warned = false := by
  simp [Hold.warns, Hold.tick, hr, tickDown_of_ne_zero hn, and_assoc]

theorem Hold.ticked_eq (h0 : x.remaining ≠ some 0#16) :
    x.ticked w = if x.lastTick then none else some (x.down w) := by
  rcases hr : x.remaining with _ | n
  · have hdown : x.down w = x := by
      cases x
      simp_all [Hold.down, Hold.tick, Hold.warns]
    simp [Hold.ticked, Hold.lastTick, hr, hdown]
  · have hn : n ≠ 0#16 := fun e => h0 (e ▸ hr)
    by_cases h1 : n = 1#16
    · simp [Hold.ticked, Hold.lastTick, hr, h1]
    · have hw : n - 1#16 = w → w ≠ 0#16 := fun e e0 => h1 ((sub_one_eq_zero_iff n).mp (e.trans e0))
      have hwarned : (x.warned || x.tick.warns w) = (x.warned || decide (n - 1#16 = w)) := by
        rw [Bool.eq_iff_iff, Bool.or_eq_true, Hold.warns_tick hr hn, Bool.or_eq_true, decide_eq_true_eq]
        cases x.warned <;> simp
        exact hw
      have hdown : x.down w = { x with remaining := some (n - 1#16), warned := x.warned || decide (n - 1#16 = w) } := by
        rw [Hold.down, hwarned, Hold.tick, hr, Option.map_some, tickDown_of_ne_zero hn]
      simp [Hold.ticked, Hold.lastTick, hr, h1, hdown]

end

/-! ### The region at a tick -/

theorem Region.losesHold_iff (g : Region) : g.losesHold = true ↔ ∃ p x, g.holders.get p = some x ∧ x.lastTick = true := by
  rw [Region.losesHold, show [Port.p0, .p1, .p2, .p3] = allPorts from rfl]
  simp [Option.any_eq_true]

theorem Region.losesExclusive_some {g : Region} {p : Port} {x : Hold} (h : g.losesExclusive = some (p, x)) :
    g.holders.get p = some x ∧ x.mode = .exclusive ∧ x.lastTick = true := by
  obtain ⟨q, -, hq⟩ := List.exists_of_findSome?_eq_some h
  split at hq
  · next y hy =>
    simp only [Option.ite_none_right_eq_some, Option.some.injEq, Prod.mk.injEq] at hq
    obtain ⟨hm, rfl, rfl⟩ := hq
    exact ⟨hy, hm⟩
  · cases hq

theorem Region.losesExclusive_none {g : Region} (h : g.losesExclusive = none) {p : Port} {x : Hold}
    (hx : g.holders.get p = some x) (hl : x.lastTick = true) : x.mode = .shared := by
  have hp := List.findSome?_eq_none_iff.mp h p (mem_allPorts p)
  cases hm : x.mode
  · rfl
  · simp [hx, hm, hl] at hp

section
variable {g : Region} (hl : g.lawful) (w : Port → Half)
include hl

theorem Region.lawful.remaining_ne_zero {p : Port} {x : Hold} (hx : g.holders.get p = some x) : x.remaining ≠ some 0#16 :=
  fun h => ((hl.2.2.2.1 p x hx).2.1 _ h).1 rfl

/-- The holds that stay after a tick are those whose count did not come to 0. -/
theorem Region.lawful.get_ticked (p : Port) :
    (g.ticked w).holders.get p = ((g.counted w).holders.get p).filter fun x => !x.expired := by
  simp only [Region.ticked, Region.counted, PerPort.get_ofFun]
  rcases hx : g.holders.get p with _ | x
  · rfl
  · have h0 := hl.remaining_ne_zero hx
    simp only [Option.bind_some, Option.map_some, Hold.ticked_eq h0, Option.filter, Hold.expired_down h0]
    cases x.lastTick <;> rfl

/-- A hold comes to 0 in the tick exactly where one loses its last tick. -/
theorem Region.lawful.anyExpired_counted : (g.counted w).anyExpired = g.losesHold := by
  have h : ∀ p, (match (g.counted w).holders.get p with | none => false | some x => x.expired) =
      (g.holders.get p).any Hold.lastTick := fun p => by
    simp only [Region.counted, PerPort.get_ofFun]
    rcases hx : g.holders.get p with _ | x
    · rfl
    · exact Hold.expired_down (hl.remaining_ne_zero hx)
  exact congrArg allPorts.any (funext h)

/-- A hold of the region counted down, with its expiry told from the hold before. -/
theorem Region.lawful.of_counted {p : Port} {y : Hold} (hy : (g.counted w).holders.get p = some y) :
    ∃ x, g.holders.get p = some x ∧ y = x.down (w p) ∧ y.expired = x.lastTick := by
  rw [Region.counted, PerPort.get_ofFun, Option.map_eq_some_iff] at hy
  obtain ⟨x, hx, rfl⟩ := hy
  exact ⟨x, hx, rfl, Hold.expired_down (hl.remaining_ne_zero hx)⟩

/-- The region after a tick is the one counted down after its expiries (R46, R52 to R55). -/
theorem Region.lawful.foldl_expireAt_counted : allPorts.foldl Region.expireAt (g.counted w) = g.ticked w := by
  have hholders : (allPorts.foldl Region.expireAt (g.counted w)).holders = (g.ticked w).holders :=
    PerPort.ext_get fun p => by rw [Region.get_foldl_expireAt, if_pos (mem_allPorts p), hl.get_ticked w p]
  have hstate : (allPorts.foldl Region.expireAt (g.counted w)).state = (g.ticked w).state := by
    rcases he : g.losesExclusive with _ | ⟨p, x⟩
    · by_cases hlose : g.losesHold = true
      · obtain ⟨p, x, hx, hlast⟩ := g.losesHold_iff.mp hlose
        have hs := hl.1.state_of_shared hx (Region.losesExclusive_none he hx hlast)
        have hshared : ∀ q y, (g.counted w).holders.get q = some y → y.mode = .shared := fun q y hy => by
          obtain ⟨z, hz, rfl, -⟩ := hl.of_counted w hy
          have := hl.1
          simp only [Region.holdersLaw, hs] at this
          exact this.2 q z hz
        rw [Region.state_foldl_expireAt_shared hshared ⟨p, mem_allPorts p, x.down (w p), by simp [Region.counted, hx],
          (Hold.expired_down (hl.remaining_ne_zero hx)).trans hlast⟩, Region.held, hholders]
        simp only [Region.ticked, he, hlose, List.any_cons, List.any_nil, Bool.or_false, Bool.or_assoc, if_true]
        rfl
      · rw [Region.foldl_expireAt_of_not_expired fun q _ y hy => ?_]
        · simp [Region.ticked, he, hlose, Region.counted]
        · obtain ⟨z, hz, -, hexp⟩ := hl.of_counted w hy
          rw [hexp]
          exact Bool.eq_false_iff.mpr fun h => hlose (g.losesHold_iff.mpr ⟨q, z, hz, h⟩)
    · obtain ⟨hx, hm, hlast⟩ := Region.losesExclusive_some he
      rw [Region.state_foldl_expireAt_exclusive (p := p) (x := x.down (w p)) (by simp [Region.counted, hx])
        ((Hold.expired_down (hl.remaining_ne_zero hx)).trans hlast) hm (fun q hq => ?_) (mem_allPorts p)]
      · simp only [Region.ticked, he]
        rfl
      · refine (hl.1.of_exclusive hx hm).2 q ?_
        simpa [Region.holds, Region.counted] using hq
  rw [Region.foldl_expireAt_eq, hholders, hstate]
  rfl

/-- Where no hold loses its last tick, the counts are all the tick does. -/
theorem Region.lawful.counted_eq_ticked (h : ¬ g.losesHold = true) : g.counted w = g.ticked w := by
  rw [← hl.foldl_expireAt_counted w, Region.foldl_expireAt_of_not_expired]
  intro p _ y hy
  obtain ⟨x, hx, -, hexp⟩ := hl.of_counted w hy
  rw [hexp]
  exact Bool.eq_false_iff.mpr fun hlast => h (g.losesHold_iff.mpr ⟨p, x, hx, hlast⟩)

/-- The fence request of a tick: the one of the EXCLUSIVE hold that ends, if one does (R54). -/
theorem Region.lawful.fences_counted (r : RegionIx) :
    (allPorts.flatMap fun p => expiryFences r p ((g.counted w).holders.get p)) =
      (g.losesExclusive.map fun x => (x.1, r)).toList := by
  rcases he : g.losesExclusive with _ | ⟨p, x⟩
  · refine List.flatMap_eq_nil_iff.mpr fun p _ => if_neg ?_
    rintro hany
    obtain ⟨y, hy, hyes⟩ := (Option.any_eq_true ..).mp hany
    obtain ⟨x, hx, rfl, hexp⟩ := hl.of_counted w hy
    simp only [Bool.and_eq_true, decide_eq_true_eq] at hyes
    have hshared : x.mode = .shared := Region.losesExclusive_none he hx (hexp ▸ hyes.1)
    exact absurd (hshared.symm.trans hyes.2) nofun
  · obtain ⟨hx, hm, hlast⟩ := Region.losesExclusive_some he
    have hexp := (Hold.expired_down (w := w p) (hl.remaining_ne_zero hx)).trans hlast
    have hf : (fun q => expiryFences r q ((g.counted w).holders.get q)) = fun q => if q = p then [(p, r)] else [] := by
      funext q
      by_cases hq : q = p
      · subst hq
        have hm : (x.down (w q)).mode = .exclusive := hm
        simp [expiryFences, Region.counted, hx, hexp, hm]
      · have hnone : g.holders.get q = none := by
          simpa [Region.holds] using mt ((hl.1.of_exclusive hx hm).2 q) hq
        simp [expiryFences, Region.counted, hnone, hq]
    rw [hf]
    cases p <;> rfl

end

/-! ### One region's tick -/

/-- The record of a tick for a hold: REVOKED where it ends, LEASE_WARNING where it comes down on the threshold
unwarned (R49, R52). -/
def holdRecord (r : RegionIx) (w : Half) (x : Hold) : Option Record :=
  match x.remaining with
  | none => none
  | some n =>
    if n = 1#16 then some (.revoked r (if x.mode = .exclusive then .exclusive else .shared) .lease)
    else if n - 1#16 = w ∧ w ≠ 0#16 ∧ x.warned = false then some (.leaseWarning r w)
    else none

/-- A hold's warning and its revocation exclude each other. -/
theorem holdRecord_toList {x : Hold} (r : RegionIx) (w : Half) (h0 : x.remaining ≠ some 0#16) :
    (holdRecord r w x).toList = warnNews r w (some x) ++ expiryNews r (some (x.down w)) := by
  have hright : x.mode.leaseRight = if x.mode = .exclusive then .exclusive else .shared := by cases x.mode <;> rfl
  rw [expiryNews, Hold.expired_down h0, show (x.down w).mode = x.mode from rfl, hright, warnNews]
  rcases hr : x.remaining with _ | n
  · have hwarns : x.tick.warns w = false := by simp [Hold.warns, Hold.tick, hr]
    simp [holdRecord, hr, hwarns, Hold.lastTick]
  · have hn : n ≠ 0#16 := fun e => h0 (e ▸ hr)
    have hwarns := Hold.warns_tick (w := w) hr hn
    simp only [holdRecord, hr, Option.any_some, hwarns, Hold.lastTick]
    by_cases h1 : n = 1#16
    · have : ¬ (n - 1#16 = w ∧ w ≠ 0#16 ∧ x.warned = false) := fun ⟨h, h', _⟩ =>
        h' (h ▸ (sub_one_eq_zero_iff n).mpr h1)
      simp only [if_neg this]
      simp [h1]
    · by_cases hw : n - 1#16 = w ∧ w ≠ 0#16 ∧ x.warned = false
      · simp only [if_pos hw]
        simp [h1]
      · simp only [if_neg hw]
        simp [h1]

/-- What a tick makes of a region at ports with these thresholds (R46, R49, R52 to R55). -/
def Region.tickTurn (g : Region) (w : Port → Half) (r : RegionIx) : Turn where
  region := if g.losesHold then (g.ticked w).afterPass else g.ticked w
  fences := (g.losesExclusive.map fun x => (x.1, r)).toList
  news q := ((g.holders.get q).bind (holdRecord r (w q))).toList ++ if g.losesHold then (g.ticked w).passNews r q else []

/-- One tick in one lawful region. -/
theorem State.tickRegion_becomes {s : State} {r : RegionIx} {g : Region} {w : Port → Half} (hg : s.slot r = some g)
    (hl : g.lawful) (hw : ∀ p, (s.port p).lwarn = w p) :
    s.tickRegion r = s.becomes r (g.tickTurn w r).region (g.tickTurn w r).fences (g.tickTurn w r).news := by
  have hnews : ∀ q, warnNews r (w q) (g.holders.get q) ++ expiryNews r ((g.counted w).holders.get q) =
      ((g.holders.get q).bind (holdRecord r (w q))).toList := fun q => by
    rw [Region.counted, PerPort.get_ofFun]
    rcases hx : g.holders.get q with _ | x
    · rfl
    · exact (holdRecord_toList r (w q) (hl.remaining_ne_zero hx)).symm
  have hexpire : ∀ t : State, t.slot r = some (g.counted w) → t.expireRegion r =
      if g.losesHold then (allPorts.foldl (fun t p => t.expireHold r p) t).grantPass r else t := fun t ht => by
    rw [← hl.anyExpired_counted w]
    simp [State.expireRegion, ht]
  rw [State.tickRegion, State.foldl_tickHold hg hw, hexpire _ (State.slot_becomes ..)]
  by_cases hlose : g.losesHold = true
  · rw [if_pos hlose, State.foldl_expireHold (State.slot_becomes ..), State.becomes_becomes, State.grantPass_of_becomes,
      hl.foldl_expireAt_counted, hl.fences_counted]
    simp only [hnews, Region.tickTurn, if_pos hlose]
    rfl
  · have hnoexpiry : ∀ q, expiryNews r ((g.counted w).holders.get q) = [] := fun q => by
      rcases hy : (g.counted w).holders.get q with _ | y
      · rfl
      · obtain ⟨x, hx, -, hexp⟩ := hl.of_counted w hy
        have : y.expired = false := hexp ▸ Bool.eq_false_iff.mpr fun h => hlose (g.losesHold_iff.mpr ⟨q, x, hx, h⟩)
        simp [expiryNews, this]
    have hnofence : g.losesExclusive = none := Option.eq_none_iff_forall_not_mem.mpr fun ⟨p, x⟩ h =>
      let ⟨hx, _, hlast⟩ := Region.losesExclusive_some h
      hlose (g.losesHold_iff.mpr ⟨p, x, hx, hlast⟩)
    simp only [hnoexpiry, List.append_nil] at hnews
    rw [if_neg hlose, hl.counted_eq_ticked w hlose]
    simp only [hnews, Region.tickTurn, if_neg hlose, hnofence, List.append_nil]
    rfl

/-- The record a tick offers, read off the states before and after, is the one it offered (R32, R49, R52). -/
theorem State.tickRecord_eq {s t : State} {r : RegionIx} {g : Region} {q : Port} (hg : s.slot r = some g) (hl : g.lawful)
    (ht : t.slot r = some (g.tickTurn (fun p => (s.port p).lwarn) r).region) :
    (s.tickRecord t q r).toList = (g.tickTurn (fun p => (s.port p).lwarn) r).news q := by
  rcases hx : g.holders.get q with _ | x
  · have hrecord : s.tickRecord t q r = s.newGrant t q r := by simp only [State.tickRecord, hg, Option.bind_some, hx]
    have hnone : (g.ticked fun p => (s.port p).lwarn).holders.get q = none := by
      rw [hl.get_ticked, Region.counted, PerPort.get_ofFun, hx]
      rfl
    rw [hrecord]
    simp only [Region.tickTurn, hx, Option.bind_none, Option.toList_none, List.nil_append] at ht ⊢
    by_cases hlose : g.losesHold = true
    · rw [if_pos hlose] at ht ⊢
      refine State.newGrant_of_pass hg ht hl.2.2.1.1 (hnone.trans hx.symm) fun _ hh => ?_
      simp [Region.holds, hnone] at hh
    · rw [if_neg hlose] at ht ⊢
      rw [State.newGrant_of_same hg ht (hnone.trans hx.symm)]
      rfl
  · have hrecord : s.tickRecord t q r = holdRecord r (s.port q).lwarn x := by
      simp only [State.tickRecord, hg, Option.bind_some, hx]
      rfl
    have hpass : (g.ticked fun p => (s.port p).lwarn).passNews r q = [] :=
      Region.passNews_of_not_waits r (hl.not_waits_of_hold hx)
    simp only [hrecord, Region.tickTurn, hx, Option.bind_some, hpass, ite_self, List.append_nil]

/-- A port that neither holds nor waits is offered nothing by a tick. -/
theorem Region.news_tickTurn_eq_nil {g : Region} {q : Port} (r : RegionIx) (w : Port → Half) (h : ¬ g.holds q)
    (hw : ¬ g.waits q) : (g.tickTurn w r).news q = [] := by
  have hx : g.holders.get q = none := by simpa [Region.holds] using h
  have hpass : (g.ticked w).passNews r q = [] := Region.passNews_of_not_waits r hw
  simp [Region.tickTurn, hx, hpass]

/-! ### The tick -/

/-- The fence requests of a tick, in ascending order of region (R54, R55). -/
theorem State.fences_tickTurn (s : State) (w : Port → Half) :
    (allRegions.flatMap fun r => (s.slot r).elim [] fun g => (g.tickTurn w r).fences) =
      (List.finRange 32).filterMap fun r => (s.slot r).bind fun g => g.losesExclusive.map fun x => (x.1, r) := by
  rw [List.filterMap_eq_flatMap_toList]
  congr 1
  funext r
  cases s.slot r <;> rfl

/-- One tick in every region (R46, R55). -/
def State.tickAll (s : State) : State := allRegions.foldl State.tickRegion s

theorem exec_leaseTick {s : State} (hr : s.rstLow = false) : exec .leaseTick s = .next { s with divider := 0 }.tickAll := by
  change Host.Outcome.next _ = _
  rw [if_neg (by simp [hr])]
  rfl

theorem State.lockEvent_tickAll (s : State) : s.LockEvent s.tickAll :=
  (State.foldl_regions State.regionEvent_tickRegion allRegions_nodup s).1

/-- A tick leaves the engine alone. -/
theorem State.engine_tickAll (s : State) :
    s.tickAll.jobQueue = s.jobQueue ∧ s.tickAll.current = s.current ∧ s.tickAll.starts = s.starts := by
  refine State.foldl_keeps (P := fun t => t.jobQueue = s.jobQueue ∧ t.current = s.current ∧ t.starts = s.starts)
    (fun t r ⟨h1, h2, h3⟩ => ?_) allRegions ⟨rfl, rfl, rfl⟩
  have c := State.continues_tickRegion (A := fun _ => False) t r
  exact ⟨c.jobQueue.trans h1, c.current.trans h2, c.starts.trans h3⟩

section
variable {s : State}

theorem State.tickRegion_of_none {r : RegionIx} (h : s.slot r = none) : s.tickRegion r = s := by
  have hcount : allPorts.foldl (fun t p => t.tickHold r p) s = s :=
    State.foldl_keeps (P := fun t => t = s) (fun t p ht => by rw [ht]; simp [State.tickHold, h]) allPorts rfl
  rw [State.tickRegion, hcount]
  simp [State.expireRegion, h]

/-- A tick in a lawful table, region by region. -/
theorem State.tickAll_turns (hl : ∀ r g, s.slot r = some g → g.lawful) :
    (∀ r, s.tickAll.slot r = (s.slot r).map fun g => (g.tickTurn (fun p => (s.port p).lwarn) r).region) ∧
    s.tickAll.fenceRequests = s.fenceRequests ++ (List.finRange 32).filterMap (fun r =>
      (s.slot r).bind fun g => g.losesExclusive.map fun x => (x.1, r)) ∧
    ∀ q, s.tickAll.port q =
      (s.port q).offered (s.allNews (fun r g => g.tickTurn (fun p => (s.port p).lwarn) r) q) := by
  rw [← s.fences_tickTurn fun p => (s.port p).lwarn]
  refine State.foldl_turns State.regionEvent_tickRegion (turn := fun r g => g.tickTurn (fun p => (s.port p).lwarn) r)
    (fun _ _ => State.tickRegion_of_none) fun t r g ht hg hg' => ?_
  rw [State.tickRegion_becomes (w := fun p => (s.port p).lwarn) hg' (hl r g hg) fun p => by rw [ht.port p]]
  exact State.turns_becomes t r _

theorem State.slot_tickAll (hl : ∀ r g, s.slot r = some g → g.lawful) {r : RegionIx} {g : Region} (hg : s.slot r = some g) :
    s.tickAll.slot r = some (g.tickTurn (fun p => (s.port p).lwarn) r).region := by
  rw [(State.tickAll_turns hl).1, hg]
  rfl

/-- Each port takes its records of the tick, in ascending order of region (R49, R52, R55). -/
theorem State.port_tickAll (hlaw : s.regionsLaw) (q : Port) : s.tickAll.port q = { s.port q with
    notes := appendAll (s.port q).notes ((List.finRange 32).filterMap (s.tickRecord s.tickAll q)) } := by
  rw [(State.tickAll_turns hlaw.1).2.2, PortIface.offered_eq fun hd => State.allNews_eq_nil fun r g hg =>
      Region.news_tickTurn_eq_nil r _ (hlaw.2 r g q hg hd).1 (hlaw.2 r g q hg hd).2,
    State.allNews_eq_filterMap (f := s.tickRecord s.tickAll q) (fun r hn => ?_)
      fun r g hg => State.tickRecord_eq hg (hlaw.1 r g hg) (State.slot_tickAll hlaw.1 hg)]
  simp [State.tickRecord, hn, State.newGrant]

/-- A tick in a lawful table changes slots, notification queues and fence requests, and nothing else. -/
theorem State.tickAll_eq (hl : ∀ r g, s.slot r = some g → g.lawful) : s.tickAll = { s with
    slots := s.tickAll.slots, ports := s.tickAll.ports
    fenceRequests := s.fenceRequests ++ (List.finRange 32).filterMap fun r =>
      (s.slot r).bind fun g => g.losesExclusive.map fun x => (x.1, r) } := by
  obtain ⟨hqueue, hcurrent, hstarts⟩ := s.engine_tickAll
  have := s.lockEvent_tickAll.eq
  rwa [hqueue, hcurrent, hstarts, (State.tickAll_turns hl).2.1] at this

end

/-- Settles O42: a tick is one change of each region, `Region.tickTurn`. -/
theorem tickTaken : Obligations.TickTaken := by
  intro s hr hlaw
  have hlaw : ({ s with divider := 0 } : State).regionsLaw := hlaw
  refine ⟨_, exec_leaseTick hr, State.tickAll_eq hlaw.1, fun r hn => ?_, fun r g hg => ?_, State.port_tickAll hlaw⟩
  · exact ((State.tickAll_turns hlaw.1).1 r).trans (by rw [show ({ s with divider := 0 } : State).slot r = none from hn]; rfl)
  · refine (State.slot_tickAll hlaw.1 (s := { s with divider := 0 }) hg).trans ?_
    rw [State.passed_eq, ← apply_ite some]
    rfl

end Sys2Proof.Machine
end

section
/-! SUPPORT. The obligations on the lease unit's remaining events and on the accesses of the register window that
launch no defined command: the REFCLK period, RENEW, the plain window writes, a tick at one hold, and LEASE_EXPIRY (O2,
O11, O19, O43, O44). -/

namespace Sys2Proof.Machine

/-! ### The REFCLK period -/

section
variable {s : State}

theorem step_of_pending_nil (h : s.pending = []) : step s = .next s.refclkPeriod := by rw [step, h]

theorem State.refclkPeriod_of_rstLow (h : s.rstLow = true) : s.refclkPeriod = s := if_pos h

theorem State.refclkPeriod_of_lt (h : s.rstLow = false) (hd : s.divider < 7999) :
    s.refclkPeriod = { s with divider := s.divider + 1 } := by
  have : s.divider + 1 < Config.tickPeriods := by simp only [Config.tickPeriods]; omega
  rw [State.refclkPeriod, if_neg (by simp [h]), if_pos this]

/-- The 8000th period gives the tick (R45). -/
theorem State.refclkPeriod_of_last (h : s.rstLow = false) (hd : s.divider = 7999) :
    s.refclkPeriod = { s with divider := 0 }.tickAll := by
  have : ¬ s.divider + 1 < Config.tickPeriods := by simp only [Config.tickPeriods]; omega
  rw [State.refclkPeriod, if_neg (by simp [h]), if_neg this]
  rfl

end

/-- Settles O2. -/
theorem emptyQueueStepIsRefclkPeriod : Obligations.EmptyQueueStepIsRefclkPeriod := by
  intro s hp
  rw [step_of_pending_nil hp]
  refine ⟨fun hr => ?_, fun hr hd => ?_, fun hr hd => ?_⟩
  · rw [State.refclkPeriod_of_rstLow hr]
  · rw [State.refclkPeriod_of_lt hr hd]
  · rw [State.refclkPeriod_of_last hr hd, exec_leaseTick hr]

/-! ### RENEW -/

/-- Settles O11: the branches of the decision in their order. -/
theorem renewDecided : Obligations.RenewDecided := by
  intro s p c g hc hg
  have ht := hc.1
  have pass := State.onRegion_launched hc hg (c.word 0x13#8)
  have h := launches_renew p c
  refine ⟨fun hh => h.refused ht (x := .notHeld) ?_, fun hh hl => h.refused ht (x := .noLease) ?_,
    fun x hx hl => h.answers ht (x := .done) ?_⟩
  · have hx : g.holders.get p = none := by simpa [Region.holds] using hh
    rw [decideRenew, pass, hx]
  · obtain ⟨x, hx⟩ := Region.holds_iff.mp hh
    rw [decideRenew, pass, hx]
    exact if_pos hl
  · rw [decideRenew, pass, hx]
    exact if_neg hl

/-! ### The plain accesses of the register window -/

section
variable {s : State} {p : Port}

/-- A well-formed window access on a port that takes it changes the port's interface and completes (R132, R174). -/
theorem exec_of_windowEffect {i : Instr} {f : PortIface → PortIface} (ht : s.takes p) (hwf : i.wf = true)
    (h : exec i s = hostAccess p i s (windowEffect p f)) : exec i s = .next (s.wrote p f) := by
  rw [h, hostAccess_of_takes hwf ht]
  rfl

/-- A window write is a matter of what it makes of the interface as it stands. -/
theorem State.wrote_congr {f f' : PortIface → PortIface} (h : f (s.port p) = f' (s.port p)) :
    s.wrote p f = s.wrote p f' := by
  simp only [State.wrote, State.updPort, h]

theorem PortIface.pop_of_nil {i : PortIface} (h : i.notes = []) : i.pop = { i with popEmpty := true } := by
  rw [PortIface.pop, h]

theorem PortIface.pop_of_cons {i : PortIface} {x : Record} {rest : List Record} (h : i.notes = x :: rest) :
    i.pop = { i with notes := rest } := by
  rw [PortIface.pop, h]

/-- Every window write that is no full write to an argument word is ignored (R174, R175). -/
theorem PortIface.writeWindow_ignored (i : PortIface) {off : BitVec 8} {be : Enables} (v : Word)
    (h : be ≠ 15#4 ∨ (off ≠ 2#8 ∧ off ≠ 3#8 ∧ off ≠ 4#8)) : i.writeWindow off be v = i := by
  obtain hbe | ⟨h2, h3, h4⟩ := h
  · exact if_pos hbe
  · rw [PortIface.writeWindow, if_neg h2, if_neg h3, if_neg h4, ite_self]

/-- A SARB write of the supervisor sets the initial and the effective priorities (R140). -/
theorem takeSarb_of_supervisor {v : Word} (h : s.supervisor = some p) :
    takeSarb p v s = State.wrote { s with initialPrio := prioritiesOf v, effectivePrio := prioritiesOf v } p id :=
  if_pos h

theorem takeSarb_of_ne {v : Word} (h : s.supervisor ≠ some p) : takeSarb p v s = s.wrote p id := if_neg h

theorem wf_badCommand_iff (p : Port) (v : Word) :
    (Instr.badCommand p v).wf = true ↔ v.extractLsb' 0 8 ∉ Config.commandCodes := by
  simp [Instr.wf, commandCode]

end

/-- Settles O19: each row is one change of the port's interface, SARB apart. -/
theorem windowWritesTaken : Obligations.WindowWritesTaken := by
  intro s p v ht
  have npop : exec (.npop p v) s = .next (s.wrote p PortIface.pop) := exec_of_windowEffect ht rfl rfl
  have sarb : exec (.sarb p v) s = .next (takeSarb p v s) := hostAccess_of_takes (c := .sarb p v) rfl ht
  refine ⟨fun hcode => exec_of_windowEffect ht ((wf_badCommand_iff p v).mpr hcode) rfl, fun off be hwf => ?_,
    fun hn => ?_, fun x rest hn => ?_, exec_of_windowEffect ht rfl rfl, exec_of_windowEffect ht rfl rfl,
    exec_of_windowEffect ht rfl rfl, exec_of_windowEffect ht rfl rfl, fun hv => ?_, fun hv => ?_⟩
  · rw [exec_of_windowEffect (f := fun i => i.writeWindow off be v) ht hwf rfl]
    refine ⟨fun h => ?_, ?_, ?_, ?_⟩
    · exact congrArg _ (State.wrote_congr (PortIface.writeWindow_ignored _ v h))
    all_goals
      rintro rfl rfl
      rfl
  · rw [npop]
    exact congrArg _ (State.wrote_congr (PortIface.pop_of_nil hn))
  · rw [npop]
    exact congrArg _ (State.wrote_congr (PortIface.pop_of_cons hn))
  · rw [sarb, takeSarb_of_supervisor hv]
    rfl
  · rw [sarb, takeSarb_of_ne hv]

/-! ### A tick at one hold -/

/-- The count of a leased hold goes down and the warning is decided on it (R46, R49). -/
theorem State.tickHold_of_hold {s : State} {r : RegionIx} {p : Port} {g : Region} {h : Hold} (hg : s.slot r = some g)
    (hx : g.holders.get p = some h) : s.tickHold r p =
      if h.tick.warns (s.port p).lwarn then
        (s.setSlot r (some { g with holders := g.holders.set p (some { h.tick with warned := true }) })).offer p
          (.leaseWarning r (s.port p).lwarn)
      else s.setSlot r (some { g with holders := g.holders.set p (some h.tick) }) := by
  simp only [State.tickHold, hg, hx]

theorem Hold.tick_of_remaining {h : Hold} {n : Half} (hr : h.remaining = some n) (hn : n ≠ 0#16) :
    h.tick = { h with remaining := some (n - 1#16) } := by
  rw [Hold.tick, hr, Option.map_some, tickDown_of_ne_zero hn]

/-- Settles O43. -/
theorem tickWarns : Obligations.TickWarns := by
  intro s r p g h n hg hx hr hn down t
  have warns := Hold.warns_tick (w := t) hr hn
  have tick := State.tickHold_of_hold hg hx
  refine ⟨fun ht hcount hw => ?_, fun hno => ?_⟩
  · rw [tick, if_pos (warns.mpr ⟨hcount, ht, hw⟩), Hold.tick_of_remaining hr hn]
  · have quiet : ¬ h.tick.warns t = true := fun hwarns => by
      obtain ⟨hcount, ht, hw⟩ := warns.mp hwarns
      obtain h0 | h1 | h2 := hno
      · exact ht h0
      · exact h1 hcount
      · exact absurd (hw.symm.trans h2) nofun
    rw [tick, if_neg quiet, Hold.tick_of_remaining hr hn]

/-! ### LEASE_EXPIRY -/

theorem Hold.expired_iff (h : Hold) : h.expired = true ↔ h.remaining = some 0#16 := beq_iff_eq

section
variable {s : State} {r : RegionIx} {p : Port} {g : Region} {h : Hold}

theorem State.expireHold_of_not_expired (hg : s.slot r = some g)
    (hn : ∀ x, g.holders.get p = some x → x.expired = false) : s.expireHold r p = s := by
  unfold State.expireHold
  rw [hg]
  rcases hx : g.holders.get p with _ | x
  · simp only [hx]
  · simp only [hx, hn x hx, Bool.false_eq_true, if_false]

theorem State.foldl_of_unchanged {op : State → Port → State} {l : List Port} (h : ∀ q ∈ l, op s q = s) :
    l.foldl op s = s := by
  induction l with
  | nil => rfl
  | cons q l ih =>
    obtain ⟨hq, hl⟩ := List.forall_mem_cons.mp h
    rw [List.foldl_cons, hq, ih hl]

/-- An operation done port by port that changes nothing at the ports but `p`, before `p`'s turn or after it, is the
operation at `p`. -/
theorem State.foldl_of_only {op : State → Port → State} {l : List Port} (hl : l.Nodup) (hp : p ∈ l)
    (hbefore : ∀ q, q ≠ p → op s q = s) (hafter : ∀ q, q ≠ p → op (op s p) q = op s p) : l.foldl op s = op s p := by
  induction l with
  | nil => cases hp
  | cons a l ih =>
    obtain ⟨ha, hl⟩ := List.nodup_cons.mp hl
    rw [List.foldl_cons]
    by_cases hap : a = p
    · subst hap
      exact State.foldl_of_unchanged fun q hq => hafter q fun e => ha (e ▸ hq)
    · rw [hbefore a hap]
      exact ih hl ((List.mem_cons.mp hp).resolve_left (Ne.symm hap))

theorem State.endHold_of_shared (revoked : Bool) (hg : s.slot r = some g) (hx : g.holders.get p = some h)
    (hm : h.mode = .shared) : s.endHold r p revoked = s.setSlot r (some (g.endShared p)) := by
  simp only [State.endHold, hg, hx, hm]

theorem State.endHold_of_exclusive (revoked : Bool) (hg : s.slot r = some g) (hx : g.holders.get p = some h)
    (hm : h.mode = .exclusive) : s.endHold r p revoked =
      (s.setSlot r (some (g.endExclusive p ⟨h.wrote, revoked⟩ (onlyPort p)))).sendFence r p := by
  simp only [State.endHold, hg, hx, hm]

/-- Where one hold of a region has come to 0, its expiry is all that LEASE_EXPIRY does before the pass (R52, R55). -/
theorem exec_leaseExpiry_of_only (hg : s.slot r = some g) (hx : g.holders.get p = some h)
    (h0 : h.remaining = some 0#16) (hothers : ∀ q x, q ≠ p → g.holders.get q = some x → x.remaining ≠ some 0#16) :
    exec (.leaseExpiry r) s =
      .next (((s.offer p (.revoked r h.mode.leaseRight .lease)).endHold r p true).grantPass r) := by
  have he : h.expired = true := h.expired_iff.mpr h0
  have hquiet : ∀ q, q ≠ p → ∀ x, g.holders.get q = some x → x.expired = false := fun q hq x hqx =>
    Bool.eq_false_iff.mpr fun hxe => hothers q x hq hqx (x.expired_iff.mp hxe)
  have hany : g.anyExpired = true := List.any_eq_true.mpr ⟨p, mem_allPorts p, by rw [hx]; exact he⟩
  have hslot : (s.expireHold r p).slot r = some (g.expireAt p) := by
    rw [State.expireHold_becomes hg, State.slot_becomes]
  have hfold : allPorts.foldl (fun t q => t.expireHold r q) s = s.expireHold r p :=
    State.foldl_of_only allPorts_nodup (mem_allPorts p) (fun q hq => State.expireHold_of_not_expired hg (hquiet q hq))
      fun q hq => State.expireHold_of_not_expired hslot (by rw [Region.get_expireAt_of_ne hq]; exact hquiet q hq)
  have hexpire : s.expireHold r p = (s.offer p (.revoked r h.mode.leaseRight .lease)).endHold r p true := by
    simp only [State.expireHold, hg, hx, he, if_true]
  rw [← hexpire, ← hfold]
  change Host.Outcome.next (s.expireRegion r) = _
  simp only [State.expireRegion, hg, hany, if_true]

end

/-- Settles O44. -/
theorem expiryTaken : Obligations.ExpiryTaken := by
  intro s r p g h hg hx h0 hothers
  rw [exec_leaseExpiry_of_only hg hx h0 hothers]
  have hslot : ∀ x, (s.offer p x).slot r = some g := fun _ => hg
  refine ⟨fun hm hq => ?_, fun hm hq => ?_, fun hm => ?_⟩
  · rw [State.endHold_of_shared true (hslot _) hx hm, Region.endShared_of_others hq, hm]
    rfl
  · rw [State.endHold_of_shared true (hslot _) hx hm, Region.endShared_of_last hq, hm]
    rfl
  · rw [State.endHold_of_exclusive true (hslot _) hx hm, State.grantPass_of_nil
      ((State.slot_sendFence ..).trans (State.slot_setSlot_self ..)) (Region.passRun_endExclusive ..), hm]
    rfl

end Sys2Proof.Machine
end

section
/-! SUPPORT. The account of the fences in flight (R61 to R66): an operation sends a request for every port a region
comes to await and for no other, and leaves the marks of each write path within it; said once for each operation of the
lock engine and each change of a port's interface. -/

namespace Sys2Proof.Machine

/-! ### What a region awaits -/

/-- The region drains and awaits port `p` (R65). -/
def Region.awaits (g : Region) (p : Port) : Bool :=
  match g.state with
  | .draining d => d.awaited.get p
  | _ => false

section
variable {s : State} {r : RegionIx} {g : Region} {p : Port}

theorem State.awaits_of_slot (h : s.slot r = some g) (p : Port) : s.awaits r p = g.awaits p := by
  simp only [State.awaits, h]
  rfl

theorem State.awaits_of_none (h : s.slot r = none) (p : Port) : s.awaits r p = false := by simp only [State.awaits, h]

theorem State.awaits_congr {t : State} (h : t.slot r = s.slot r) (p : Port) : t.awaits r p = s.awaits r p := by
  simp only [State.awaits, h]

theorem Region.awaits_congr {k : Region} (h : k.state = g.state) (p : Port) : k.awaits p = g.awaits p := by
  simp only [Region.awaits, h]

theorem Region.awaits_of_draining {d : Drain} (h : g.state = .draining d) (p : Port) : g.awaits p = d.awaited.get p := by
  simp only [Region.awaits, h]

/-- A region that does not drain awaits no port. -/
theorem Region.awaits_of_not_draining (h : ∀ d, g.state ≠ .draining d) (p : Port) : g.awaits p = false := by
  unfold Region.awaits
  split
  · next d hd => exact absurd hd (h d)
  · rfl

/-- A grant pass leaves what a region awaits: it grants nothing while the region drains (R31). -/
theorem Region.awaits_afterPass (g : Region) (p : Port) : g.afterPass.awaits p = g.awaits p := by
  rcases hrun : g.passRun with _ | ⟨e, l⟩
  · rw [Region.afterPass_of_nil hrun]
  · obtain ⟨m, hm⟩ := g.passRun_mode
    have after : g.afterPass.state = m.heldState := by
      rw [Region.afterPass, Region.state_foldl_grant hm, if_neg (by simp [hrun])]
    have before : g.state = .free ∨ g.state = .shared := by
      by_contra h
      obtain ⟨h1, h2⟩ := not_or.mp h
      rw [Region.passRun_of_state h1 h2] at hrun
      cases hrun
    rw [Region.awaits_of_not_draining fun d => by rw [after]; cases m <;> exact nofun,
      Region.awaits_of_not_draining fun d => by rcases before with h | h <;> rw [h] <;> exact nofun]

end

/-! ### The write path and its marks -/

/-- Every mark counts one or more of the writes still in the port's path (R63). -/
def PortIface.marksBounded (i : PortIface) : Prop := ∀ m ∈ i.fences, 1 ≤ m.count ∧ m.count ≤ i.writesInPath

/-- The posted queue, the blocking access and the fence list. -/
def PortIface.path (i : PortIface) : List StoreWrite × Option Blocking × List FenceMark := (i.posted, i.blocking, i.fences)

/-- `j` has no mark that `i` has not, and while a mark is left no fewer writes in its path. -/
structure PortIface.MarksKept (i j : PortIface) : Prop where
  subset : j.fences ⊆ i.fences
  writes : j.fences ≠ [] → i.writesInPath ≤ j.writesInPath

section
variable {i j k : PortIface}

theorem PortIface.MarksKept.refl (i : PortIface) : i.MarksKept i := ⟨List.Subset.refl _, fun _ => Nat.le_refl _⟩

theorem PortIface.MarksKept.trans (h1 : i.MarksKept j) (h2 : j.MarksKept k) : i.MarksKept k where
  subset := List.Subset.trans h2.subset h1.subset
  writes hk := (h1.writes fun hj => hk (List.subset_nil.mp (hj ▸ h2.subset))).trans (h2.writes hk)

theorem PortIface.MarksKept.bounded (h : i.MarksKept j) (hb : i.marksBounded) : j.marksBounded := fun m hm =>
  have ⟨h1, h2⟩ := hb m (h.subset hm)
  ⟨h1, h2.trans (h.writes (List.ne_nil_of_mem hm))⟩

theorem PortIface.fences_of_path (h : j.path = i.path) : j.fences = i.fences := congrArg (fun x => x.2.2) h

theorem PortIface.writesInPath_of_path (h : j.path = i.path) : j.writesInPath = i.writesInPath := by
  have hp : j.posted = i.posted := congrArg Prod.fst h
  have hb : j.blocking = i.blocking := congrArg (fun x => x.2.1) h
  simp only [PortIface.writesInPath, hp, hb]

theorem PortIface.marksKept_of_path (h : j.path = i.path) : i.MarksKept j :=
  ⟨by rw [PortIface.fences_of_path h]; exact List.Subset.refl _, fun _ => (PortIface.writesInPath_of_path h).ge⟩

/-- Without marks nothing is asked of the path. -/
theorem PortIface.marksKept_of_nil (h : j.fences = []) : i.MarksKept j :=
  ⟨by rw [h]; exact List.nil_subset _, fun hj => absurd h hj⟩

theorem PortIface.marksKept_of_writes (hf : j.fences = i.fences) (hw : i.writesInPath ≤ j.writesInPath) : i.MarksKept j :=
  ⟨by rw [hf]; exact List.Subset.refl _, fun _ => hw⟩

/-- The completions reported of a list of marks of port `p`, counted (R63, R64). -/
theorem count_completions (l : List FenceMark) (p q : Port) (r : RegionIx) :
    (l.map fun m => (p, m.region)).count (q, r) = if q = p then (l.filter fun m => m.region = r).length else 0 := by
  induction l with
  | nil => simp
  | cons m l ih =>
    rw [List.map_cons, List.count_cons, ih, List.filter_cons]
    by_cases hp : q = p
    · subst hp
      by_cases hr : m.region = r <;> simp [hr]
    · simp [hp, Ne.symm hp]

/-- A fence list that names no region twice (R61). -/
theorem PortIface.nodup_fences (h : ∀ r, (i.fences.filter fun m => m.region = r).length ≤ 1) :
    (i.fences.map FenceMark.region).Nodup := by
  rw [List.nodup_iff_count_le_one]
  intro r
  refine Nat.le_trans (Nat.le_of_eq ?_) (h r)
  rw [List.count, List.countP_map, List.countP_eq_length_filter]
  rfl

end

/-! ### The account -/

/-- What region `r` has of port `p`'s fence in flight changes from `s` to `t` as what it awaits of it does. -/
def State.FencesBalance (s t : State) : Prop :=
  ∀ p r, t.fencesInFlight p r + (s.awaits r p).toNat = s.fencesInFlight p r + (t.awaits r p).toNat

/-- `t` comes from `s` with the account of the fences balanced and no mark added. -/
structure State.KeepsFences (s t : State) : Prop where
  balance : s.FencesBalance t
  marks : ∀ p, (s.port p).MarksKept (t.port p)

section
variable {s t u : State} {r : RegionIx} {g k : Region}

theorem State.FencesBalance.trans (h1 : s.FencesBalance t) (h2 : t.FencesBalance u) : s.FencesBalance u := fun p r => by
  have := h1 p r
  have := h2 p r
  omega

theorem State.KeepsFences.refl (s : State) : s.KeepsFences s := ⟨fun _ _ => rfl, fun _ => PortIface.MarksKept.refl _⟩

theorem State.KeepsFences.trans (h1 : s.KeepsFences t) (h2 : t.KeepsFences u) : s.KeepsFences u :=
  ⟨h1.balance.trans h2.balance, fun p => (h1.marks p).trans (h2.marks p)⟩

/-- A balanced account is the law of the fences, if the marks stay within their write paths (R61). -/
theorem State.FencesBalance.fencesLaw (h : s.FencesBalance t) (hm : ∀ p, (t.port p).marksBounded) (hs : s.fencesLaw) :
    t.fencesLaw := by
  have inFlight : ∀ p r, t.fencesInFlight p r = if t.awaits r p then 1 else 0 := fun p r => by
    have hb := h p r
    rw [hs.1 p r] at hb
    cases ht : t.awaits r p <;> cases ha : s.awaits r p <;> simp [ht, ha] at hb ⊢ <;> exact hb
  refine ⟨inFlight, fun p => ⟨PortIface.nodup_fences fun r => ?_, hm p⟩⟩
  have := inFlight p r
  unfold State.fencesInFlight at this
  split at this <;> omega

theorem State.fencesLaw.bounded (h : s.fencesLaw) (p : Port) : (s.port p).marksBounded := (h.2 p).2

theorem State.KeepsFences.fencesLaw (h : s.KeepsFences t) (hs : s.fencesLaw) : t.fencesLaw :=
  h.balance.fencesLaw (fun p => (h.marks p).bounded (hs.bounded p)) hs

/-! ### Changes that leave every fence alone -/

/-- With requests, completions and marks as they were, and each region awaiting what it did. -/
theorem State.fencesBalance_of_same (hr : t.fenceRequests = s.fenceRequests) (hc : t.completions = s.completions)
    (hf : ∀ p, (t.port p).fences = (s.port p).fences) (ha : ∀ r p, t.awaits r p = s.awaits r p) : s.FencesBalance t :=
  fun p r => by simp only [State.fencesInFlight, hr, hc, hf, ha]

theorem State.keepsFences_of_same (hr : t.fenceRequests = s.fenceRequests) (hc : t.completions = s.completions)
    (hp : ∀ p, (t.port p).path = (s.port p).path) (ha : ∀ r p, t.awaits r p = s.awaits r p) : s.KeepsFences t :=
  ⟨State.fencesBalance_of_same hr hc (fun p => PortIface.fences_of_path (hp p)) ha,
    fun p => PortIface.marksKept_of_path (hp p)⟩

/-- A change of one port's interface that leaves its marks. -/
theorem State.keepsFences_updPort_of_marksKept (s : State) (p : Port) {f : PortIface → PortIface}
    (hf : (f (s.port p)).fences = (s.port p).fences) (hm : (s.port p).MarksKept (f (s.port p))) :
    s.KeepsFences (s.updPort p f) := by
  refine ⟨State.fencesBalance_of_same rfl rfl (fun q => ?_) fun _ _ => rfl, fun q => ?_⟩ <;>
    rw [State.port_updPort] <;> split
  · next h => rw [hf, h]
  · rfl
  · next h => rw [h]; exact hm
  · exact PortIface.MarksKept.refl _

/-- A change of one port's interface that leaves its write path. -/
theorem State.keepsFences_updPort (s : State) (p : Port) {f : PortIface → PortIface}
    (h : (f (s.port p)).path = (s.port p).path) : s.KeepsFences (s.updPort p f) :=
  s.keepsFences_updPort_of_marksKept p (PortIface.fences_of_path h) (PortIface.marksKept_of_path h)

theorem State.keepsFences_complete (s : State) (p : Port) (b : BusResult) : s.KeepsFences (s.complete p b) :=
  s.keepsFences_updPort p rfl

theorem State.LockEvent.path (e : s.LockEvent t) (p : Port) : (t.port p).path = (s.port p).path := by rw [e.port p]; rfl

/-! ### Changes of one region -/

/-- An operation on region `r` that requests the fences it comes to await, and no other (R66). -/
theorem State.RegionEvent.keepsFences {F : List (Port × RegionIx)} (e : s.RegionEvent t r)
    (hF : t.fenceRequests = s.fenceRequests ++ F) (hr : ∀ x ∈ F, x.2 = r)
    (hb : ∀ p, F.count (p, r) + (s.awaits r p).toNat = (t.awaits r p).toNat) : s.KeepsFences t := by
  refine ⟨fun p q => ?_, fun p => PortIface.marksKept_of_path (e.path p)⟩
  simp only [State.fencesInFlight, hF, List.count_append, e.completions, PortIface.fences_of_path (e.path p)]
  by_cases hq : q = r
  · subst hq
    have := hb p
    omega
  · have hn : F.count (p, q) = 0 := List.count_eq_zero.mpr fun h => hq (hr _ h)
    rw [State.awaits_congr (e.slot q hq), hn, Nat.add_zero]

/-- An operation on region `r` that requests no fence and leaves what the region awaits. -/
theorem State.RegionEvent.keepsFences_of_same (e : s.RegionEvent t r) (hF : t.fenceRequests = s.fenceRequests)
    (hb : ∀ p, t.awaits r p = s.awaits r p) : s.KeepsFences t :=
  e.keepsFences (F := []) (by rw [hF, List.append_nil]) nofun fun p => by rw [hb, List.count_nil, Nat.zero_add]

theorem State.keepsFences_becomes {F : List (Port × RegionIx)} (N : Port → List Record) (hg : s.slot r = some g)
    (hr : ∀ x ∈ F, x.2 = r) (hb : ∀ p, F.count (p, r) + (g.awaits p).toNat = (k.awaits p).toNat) :
    s.KeepsFences (s.becomes r k F N) :=
  (State.regionEvent_becomes s r k F N).keepsFences rfl hr fun p => by
    rw [State.awaits_of_slot hg, State.awaits_of_slot (State.slot_becomes s r k F N)]
    exact hb p

/-- Slot `r` replaced by a region that awaits the same ports. -/
theorem State.keepsFences_setSlot (hg : s.slot r = some g) (h : ∀ p, k.awaits p = g.awaits p) :
    s.KeepsFences (s.setSlot r (some k)) :=
  (State.regionEvent_setSlot s r _).keepsFences_of_same rfl fun p => by
    rw [State.awaits_of_slot (State.slot_setSlot_self s r _), State.awaits_of_slot hg, h]

/-- Slot `r` replaced by a region that comes to await one port, with the request to it (R61). -/
theorem State.keepsFences_setSlot_sendFence {d : Drain} {q : Port} (hg : s.slot r = some g)
    (hn : ∀ d, g.state ≠ .draining d) (hk : k.state = .draining d) (hd : d.awaited = onlyPort q) :
    s.KeepsFences ((s.setSlot r (some k)).sendFence r q) := by
  refine ((State.regionEvent_setSlot s r (some k)).trans (State.regionEvent_sendFence _ r r q)).keepsFences
    (F := [(q, r)]) rfl (by simp) fun p => ?_
  rw [State.awaits_of_slot hg, Region.awaits_of_not_draining hn,
    State.awaits_of_slot ((State.slot_sendFence ..).trans (State.slot_setSlot_self s r _)),
    Region.awaits_of_draining hk, hd, onlyPort_get, List.count_singleton]
  by_cases h : p = q
  · subst h; simp
  · simp [h, Ne.symm h]

theorem State.keepsFences_offer (s : State) (p : Port) (x : Record) : s.KeepsFences (s.offer p x) :=
  (State.regionEvent_offer s 0 p x).keepsFences_of_same rfl fun _ => rfl

theorem State.keepsFences_foldl {α : Type} {f : State → α → State}
    (hf : ∀ (t : State) (a : α), t.KeepsFences (f t a)) (l : List α) (s : State) : s.KeepsFences (l.foldl f s) :=
  State.foldl_keeps (P := fun t => s.KeepsFences t) (fun t a h => h.trans (hf t a)) l (State.KeepsFences.refl s)

theorem State.keepsFences_grantPass (s : State) (r : RegionIx) : s.KeepsFences (s.grantPass r) := by
  cases hg : s.slot r with
  | none =>
    have : s.grantPass r = s := by simp [State.grantPass, hg]
    rw [this]
    exact State.KeepsFences.refl s
  | some g =>
    rw [State.grantPass_becomes hg]
    exact State.keepsFences_becomes _ hg nofun fun p => by rw [g.awaits_afterPass p, List.count_nil, Nat.zero_add]

theorem State.keepsFences_queueJob (s : State) (r : RegionIx) (j : JobKind) (q : Option Port) :
    s.KeepsFences (s.queueJob r j q) := by
  refine (State.regionEvent_queueJob s r j q).keepsFences_of_same (State.fenceRequests_queueJob ..) fun p => ?_
  cases hg : s.slot r with
  | none =>
    have : (s.queueJob r j q).slot r = none := by
      have he : (s.enqueueJob r j q).slot r = none := by
        refine (State.slot_updRegion s r r _).trans ?_
        rw [if_pos rfl, hg]
        rfl
      unfold State.queueJob
      split
      · rw [State.slot_startHead, he]
      · exact he
    rw [State.awaits_of_none this, State.awaits_of_none hg]
  | some g =>
    rw [State.awaits_of_slot hg, State.awaits_of_slot (State.slot_queueJob_self j q hg)]
    rfl

/-! ### Drains -/

/-- A drain that is over awaits nothing (R67). -/
theorem Region.awaits_of_drainOver {d : Drain} (hs : g.state = .draining d) (ho : g.drainOver d = true) (p : Port) :
    g.awaits p = false := by
  rw [Region.drainOver, Bool.and_eq_true] at ho
  rw [Region.awaits_of_draining hs]
  exact d.awaited.isEmpty_iff.mp ho.1 p

/-- The end of a drain leaves a region that awaits nothing, and requests no fence (R67 to R70). -/
theorem State.keepsFences_endDrain {d : Drain} (hg : s.slot r = some g) (hs : g.state = .draining d)
    (ho : g.drainOver d = true) : s.KeepsFences (s.endDrain r g d) := by
  have settle : ∀ {k : Region}, (∀ d, k.state ≠ .draining d) → s.KeepsFences (s.setSlot r (some k)) := fun hk =>
    State.keepsFences_setSlot hg fun p => by
      rw [Region.awaits_of_not_draining hk, Region.awaits_of_drainOver hs ho]
  have wipe : ∀ q, s.KeepsFences (s.startWipe r g q) := fun q =>
    (settle (k := { g with state := .wiping }) fun _ => nofun).trans (State.keepsFences_queueJob _ r _ _)
  unfold State.endDrain
  split
  · next e _ =>
    refine ((settle (k := g.settled e) fun _ => nofun).trans ?_).trans (State.keepsFences_grantPass _ r)
    unfold State.autoDigest
    split
    · exact State.keepsFences_queueJob _ r _ _
    · exact State.KeepsFences.refl _
  · exact (settle (k := g.opened) fun _ => nofun).trans (State.keepsFences_grantPass _ r)
  · exact wipe _
  · exact wipe _

theorem State.keepsFences_decideDrain (s : State) (r : RegionIx) : s.KeepsFences (s.decideDrain r) := by
  rcases s.decideDrain_cases r with h | ⟨g, d, hg, hs, ho, h⟩ <;> rw [h]
  · exact State.KeepsFences.refl s
  · exact State.keepsFences_endDrain hg hs ho

/-! ### Holds that end -/

/-- A region some port holds does not drain (R5). -/
theorem Region.lawful.not_draining_of_holds {p : Port} (hl : g.lawful) (h : g.holds p) (d : Drain) :
    g.state ≠ .draining d := fun hs => hl.1.none_held (by simp [hs]) (by simp [hs]) p h

theorem Region.awaits_endShared {p : Port} (hl : g.lawful) (h : g.holds p) (q : Port) :
    (g.endShared p).awaits q = g.awaits q := by
  rw [Region.awaits_of_not_draining (hl.not_draining_of_holds h)]
  refine Region.awaits_of_not_draining (fun d => ?_) q
  simp only [Region.endShared]
  split <;> exact nofun

theorem State.keepsFences_endHold (hl : s.tableLawful) (r : RegionIx) (p : Port) (revoked : Bool) :
    s.KeepsFences (s.endHold r p revoked) := by
  rcases s.endHold_cases r p revoked with h | ⟨g, x, hg, hx, -, h⟩ | ⟨g, x, hg, hx, -, h⟩ <;> rw [h]
  · exact State.KeepsFences.refl s
  · exact State.keepsFences_setSlot hg (Region.awaits_endShared (hl r g hg) (Region.holds_iff.mpr ⟨x, hx⟩))
  · exact State.keepsFences_setSlot_sendFence hg ((hl r g hg).not_draining_of_holds (Region.holds_iff.mpr ⟨x, hx⟩)) rfl rfl

theorem State.keepsFences_leaveRegion (hl : s.tableLawful) (p : Port) (r : RegionIx) :
    s.KeepsFences (s.leaveRegion p r) := by
  rcases s.leaveRegion_cases p r with ⟨h, -⟩ | ⟨g, -, -, h⟩ | ⟨g, hg, -, h⟩ <;> rw [h]
  · exact State.KeepsFences.refl s
  · exact (State.keepsFences_endHold hl r p false).trans (State.keepsFences_grantPass _ r)
  · exact (State.keepsFences_setSlot (k := g.withdraw p) hg fun _ => rfl).trans (State.keepsFences_grantPass _ r)

/-- A port reset cuts an EXCLUSIVE hold with its fence complete: nothing is requested, nothing awaited (R44, R165). -/
theorem State.keepsFences_cutRegion (hl : s.tableLawful) (p : Port) (r : RegionIx) : s.KeepsFences (s.cutRegion p r) := by
  rcases s.cutRegion_cases p r with ⟨h, -⟩ | ⟨g, x, hg, hx, -, h⟩ | ⟨g, x, hg, hx, -, h⟩ | ⟨g, hg, -, h⟩ <;> rw [h]
  · exact State.KeepsFences.refl s
  · exact (State.keepsFences_setSlot hg (Region.awaits_endShared (hl r g hg) (Region.holds_iff.mpr ⟨x, hx⟩))).trans
      (State.keepsFences_grantPass _ r)
  · refine (State.keepsFences_setSlot hg fun q => ?_).trans (State.keepsFences_decideDrain _ r)
    rw [Region.awaits_of_not_draining ((hl r g hg).not_draining_of_holds (Region.holds_iff.mpr ⟨x, hx⟩)),
      Region.awaits_of_draining (g := g.endExclusive p ⟨x.wrote, true⟩ (.all false)) rfl, PerPort.get_all]
  · exact (State.keepsFences_setSlot (k := g.withdraw p) hg fun _ => rfl).trans (State.keepsFences_grantPass _ r)

/-! ### The tick -/

/-- A tick awaits the fence it requests: that of the EXCLUSIVE hold that ends (R54). -/
theorem Region.lawful.balance_tickTurn (hl : g.lawful) (w : Port → Half) (r : RegionIx) (p : Port) :
    (g.tickTurn w r).fences.count (p, r) + (g.awaits p).toNat = ((g.tickTurn w r).region.awaits p).toNat := by
  have hticked : (g.tickTurn w r).region.awaits p = (g.ticked w).awaits p := by
    unfold Region.tickTurn
    split
    · exact Region.awaits_afterPass _ p
    · rfl
  rw [hticked]
  rcases he : g.losesExclusive with _ | ⟨q, x⟩
  · have hf : (g.tickTurn w r).fences = [] := by simp [Region.tickTurn, he]
    rw [hf, List.count_nil, Nat.zero_add]
    by_cases hlose : g.losesHold = true
    · obtain ⟨q, x, hx, -⟩ := g.losesHold_iff.mp hlose
      rw [Region.awaits_of_not_draining (hl.not_draining_of_holds (Region.holds_iff.mpr ⟨x, hx⟩)),
        Region.awaits_of_not_draining fun d => ?_]
      simp only [Region.ticked, he, hlose, if_true]
      split <;> exact nofun
    · rw [Region.awaits_congr (k := g.ticked w) (g := g) (by simp [Region.ticked, he, hlose])]
  · obtain ⟨hx, -, -⟩ := Region.losesExclusive_some he
    have hf : (g.tickTurn w r).fences = [(q, r)] := by simp [Region.tickTurn, he]
    have hs : (g.ticked w).state = .draining ⟨.release ⟨x.wrote, true⟩, onlyPort q⟩ := by simp [Region.ticked, he]
    rw [hf, Region.awaits_of_not_draining (hl.not_draining_of_holds (Region.holds_iff.mpr ⟨x, hx⟩)),
      Region.awaits_of_draining hs, onlyPort_get, List.count_singleton]
    by_cases h : p = q
    · subst h; simp
    · simp [h, Ne.symm h]

theorem State.keepsFences_tickRegion (hl : s.tableLawful) (r : RegionIx) : s.KeepsFences (s.tickRegion r) := by
  cases hg : s.slot r with
  | none => rw [State.tickRegion_of_none hg]; exact State.KeepsFences.refl s
  | some g =>
    rw [State.tickRegion_becomes (w := fun p => (s.port p).lwarn) hg (hl r g hg) fun _ => rfl]
    refine State.keepsFences_becomes _ hg (fun x hx => ?_) ((hl r g hg).balance_tickTurn _ r)
    obtain ⟨y, -, rfl⟩ := Option.map_eq_some_iff.mp (Option.mem_toList.mp hx)
    rfl

/-- In a lawful region no count stands at 0, so LEASE_EXPIRY finds nothing to do (R52, log entry 4). -/
theorem State.expireRegion_of_lawful (hl : s.tableLawful) (r : RegionIx) : s.expireRegion r = s := by
  cases hg : s.slot r with
  | none => simp [State.expireRegion, hg]
  | some g =>
    have : g.anyExpired = false := by
      refine Bool.eq_false_iff.mpr fun h => ?_
      obtain ⟨p, -, hp⟩ := List.any_eq_true.mp h
      cases hx : g.holders.get p with
      | none => simp [hx] at hp
      | some x =>
        rw [hx] at hp
        exact ((hl r g hg).2.2.2.1 p x hx).2.1 0#16 (x.expired_iff.mp hp) |>.1 rfl
    simp [State.expireRegion, hg, this]

/-! ### Operations on the whole table -/

/-- An operation done for every region of a lawful table. -/
theorem State.keepsFences_foldl_regions {A : Port → Prop} {f : State → RegionIx → State}
    (hop : ∀ (t : State) (r : RegionIx), t.RegionOp A (f t r) r)
    (hf : ∀ (t : State) (r : RegionIx), t.tableLawful → t.KeepsFences (f t r)) (hl : s.tableLawful) :
    s.KeepsFences (allRegions.foldl f s) :=
  (State.foldl_keeps (P := fun t => t.tableLawful ∧ s.KeepsFences t)
    (fun t r ⟨ht, hk⟩ => ⟨(hop t r).tableOp.tableLawful ht, hk.trans (hf t r ht)⟩) allRegions
    ⟨hl, State.KeepsFences.refl s⟩).2

theorem State.keepsFences_takeTick (hl : s.tableLawful) : s.KeepsFences s.takeTick :=
  have tick : ({ s with divider := 0 } : State).KeepsFences s.takeTick :=
    State.keepsFences_foldl_regions (A := fun _ => False)
      (fun t r => State.Continues.regionOp (State.continues_tickRegion t r)) (fun _ r ht => State.keepsFences_tickRegion ht r) hl
  ⟨tick.balance, tick.marks⟩

/-- The marks a port reset reports are no longer in its fence list: their fences stay in flight (R64, R165). -/
theorem State.keepsFences_resetPort (hl : s.tableLawful) (p : Port) (o : Option Instr) : s.KeepsFences (s.resetPort p o) := by
  have cleared : s.KeepsFences ((s.reportMarks p).updPort p fun i => i.restored o) := by
    refine ⟨fun q r => ?_, fun q => ?_⟩
    · have hw : ((s.reportMarks p).updPort p fun i => i.restored o).awaits r q = s.awaits r q := rfl
      rw [hw]
      simp only [State.fencesInFlight, State.fenceRequests_updPort, State.completions_updPort, State.port_updPort,
        State.reportMarks, List.count_append, count_completions]
      split
      · next h =>
        subst h
        simp only [PortIface.restored, PortIface.atReset, List.filter_nil, List.length_nil]
        omega
      · rfl
    · rw [State.port_updPort]
      split
      · exact PortIface.marksKept_of_nil rfl
      · exact PortIface.MarksKept.refl _
  exact cleared.trans (State.keepsFences_foldl_regions (A := fun _ => False) (fun t r => State.regionOp_cutRegion t p r)
    (fun _ r ht => State.keepsFences_cutRegion ht p r) hl)

end

end Sys2Proof.Machine
end

section
/-! SUPPORT. The account of the fences, kept by every access of a host: the decisions of the lock engine, the window
writes, the view accesses, and their taking by the interface. -/

namespace Sys2Proof.Machine

variable {s t : State} {p : Port}

/-! ### Decisions -/

theorem State.keepsFences_whenAttached {k : Decision} (h : s.KeepsFences k.1) : s.KeepsFences (s.whenAttached p k).1 := by
  unfold State.whenAttached
  split
  · exact State.KeepsFences.refl s
  · split
    · exact State.KeepsFences.refl s
    · exact h

theorem State.keepsFences_onRegion {r : RegionIx} {k : Region → Decision}
    (h : ∀ g, s.slot r = some g → s.KeepsFences (k g).1) : s.KeepsFences (s.onRegion p r k).1 := by
  refine State.keepsFences_whenAttached ?_
  split
  · exact State.KeepsFences.refl s
  · next g hg => exact h g hg

theorem State.keepsFences_asSupervisor {k : Decision} (h : s.KeepsFences k.1) : s.KeepsFences (s.asSupervisor p k).1 := by
  refine State.keepsFences_whenAttached ?_
  split
  · exact h
  · exact State.KeepsFences.refl s

/-- A command word is its decision between two changes of its port's window (R175). -/
theorem State.keepsFences_launch {word : Word} {decide : State → Decision}
    (h : ∀ u : State, u.tableLawful → u.KeepsFences (decide u).1) (hl : s.tableLawful) :
    s.KeepsFences (launch p word decide s) := by
  rw [launch_eq]
  exact ((s.keepsFences_updPort p (f := fun i => { i with cmd := word }) rfl).trans (h (s.launched p word) hl)).trans
    (State.keepsFences_updPort _ p (f := fun i => { i with cres := _, cresv := _, bus := .wrote }) rfl)

theorem keepsFences_decideAttach (c : CmdFields) : s.KeepsFences (decideAttach p c s).1 := by
  unfold decideAttach
  split
  · exact State.KeepsFences.refl s
  · split
    · exact State.KeepsFences.refl s
    · exact s.keepsFences_updPort p (f := fun i => { i with state := .attached }) rfl

theorem keepsFences_decideDetach (hl : s.tableLawful) (c : CmdFields) : s.KeepsFences (decideDetach p c s).1 :=
  State.keepsFences_whenAttached ((State.keepsFences_foldl_regions (A := fun _ => False)
    (fun t r => State.Continues.regionOp (State.continues_leaveRegion t p r))
    (fun _ r ht => State.keepsFences_leaveRegion ht p r) hl).trans
      (State.keepsFences_updPort _ p (f := fun i => { i with state := .detached }) rfl))

theorem keepsFences_decideAcquire (c : CmdFields) : s.KeepsFences (decideAcquire p c s).1 := by
  unfold decideAcquire
  generalize (if c.exclusive then Mode.exclusive else .shared) = mode
  refine State.keepsFences_onRegion fun g hg => ?_
  split
  · exact State.KeepsFences.refl s
  · split
    · exact State.KeepsFences.refl s
    · split
      · exact State.KeepsFences.refl s
      · split
        · exact State.KeepsFences.refl s
        · split
          · next hgr =>
            refine State.keepsFences_setSlot (k := g.grant ⟨p, mode⟩) hg fun q => ?_
            have before : ∀ d, g.state ≠ .draining d := fun d hd => by
              cases mode <;> simp [Region.grantable, hd] at hgr
            have after : ∀ d, (g.grant ⟨p, mode⟩).state ≠ .draining d := by
              cases mode <;> simp [Region.grant, Mode.heldState]
            rw [Region.awaits_of_not_draining before, Region.awaits_of_not_draining after]
          · split
            · exact State.keepsFences_setSlot hg fun _ => rfl
            · exact State.KeepsFences.refl s

theorem keepsFences_decideCancel (c : CmdFields) : s.KeepsFences (decideCancel p c s).1 := by
  refine State.keepsFences_onRegion fun g hg => ?_
  split
  · exact (State.keepsFences_setSlot (k := g.withdraw p) hg fun _ => rfl).trans (State.keepsFences_grantPass _ _)
  · exact State.KeepsFences.refl s

theorem keepsFences_decideRelease (hl : s.tableLawful) (c : CmdFields) : s.KeepsFences (decideRelease p c s).1 := by
  refine State.keepsFences_onRegion fun g _ => ?_
  split
  · exact (State.keepsFences_endHold hl _ p false).trans (State.keepsFences_grantPass _ _)
  · exact State.KeepsFences.refl s

theorem keepsFences_decideRenew (c : CmdFields) : s.KeepsFences (decideRenew p c s).1 := by
  refine State.keepsFences_onRegion fun g hg => ?_
  split
  · exact State.KeepsFences.refl s
  · split
    · exact State.KeepsFences.refl s
    · exact State.keepsFences_setSlot hg fun _ => rfl

/-- The EXCLUSIVE region that becomes PRIVATE did not drain (R79). -/
theorem keepsFences_decideMakePrivate (hl : s.tableLawful) (c : CmdFields) : s.KeepsFences (decideMakePrivate p c s).1 := by
  refine State.keepsFences_onRegion fun g hg => ?_
  split
  · exact State.KeepsFences.refl s
  · next he =>
    split
    · exact State.KeepsFences.refl s
    · split
      · exact State.KeepsFences.refl s
      · obtain ⟨x, hx, -⟩ := Region.exclusiveBy_iff.mp (by simpa using he)
        refine State.keepsFences_setSlot hg fun q => ?_
        rw [Region.awaits_of_not_draining ((hl _ g hg).not_draining_of_holds (Region.holds_iff.mpr ⟨x, hx⟩)),
          Region.awaits_of_not_draining (g := { g.dropHold p with state := .ownedBy p }) fun _ => nofun]

theorem keepsFences_decideRelinquish (c : CmdFields) : s.KeepsFences (decideRelinquish p c s).1 := by
  refine State.keepsFences_onRegion fun g hg => ?_
  split
  · next hp =>
    exact State.keepsFences_setSlot_sendFence hg (fun d hd => by simp [hd, RegionState.proprietor] at hp) rfl rfl
  · exact State.KeepsFences.refl s

theorem keepsFences_decideDigest (c : CmdFields) : s.KeepsFences (decideDigest p c s).1 := by
  refine State.keepsFences_onRegion fun g _ => ?_
  split
  · exact State.KeepsFences.refl s
  · split
    · exact State.KeepsFences.refl s
    · exact s.keepsFences_queueJob _ _ _

theorem keepsFences_decideMessage (c : CmdFields) : s.KeepsFences (decideMessage p c s).1 := by
  refine State.keepsFences_whenAttached ?_
  split
  · exact State.KeepsFences.refl s
  · split
    · exact State.KeepsFences.refl s
    · exact s.keepsFences_updPort c.target (f := fun i => { i with notes := i.notes ++ [.message p (s.port p).carg0] }) rfl

/-- A new region awaits all four ports, and each has its request (R14). -/
theorem State.keepsFences_defined {r : RegionIx} (e : Extent) (a : Attributes) (hf : s.slot r = none) :
    s.KeepsFences (allPorts.foldl (fun t q => t.sendFence r q) (s.setSlot r (some (freshRegion e a)))) := by
  rw [State.sendFence_allPorts]
  refine State.RegionEvent.keepsFences (r := r) (F := [(.p0, r), (.p1, r), (.p2, r), (.p3, r)])
    ⟨⟨rfl, rfl, rfl, rfl, rfl, rfl, rfl, rfl, rfl, rfl, rfl, rfl, fun _ => rfl⟩,
      fun q h => State.slot_setSlot_of_ne s _ h⟩ rfl (by simp) fun q => ?_
  change _ = ((s.setSlot r (some (freshRegion e a))).awaits r q).toNat
  have hall : (freshRegion e a).awaits q = true := PerPort.get_all true q
  rw [State.awaits_of_none hf, State.awaits_of_slot (State.slot_setSlot_self ..), hall]
  cases q <;> simp

theorem keepsFences_decideDefine (c : CmdFields) : s.KeepsFences (decideDefine p c s).1 := by
  refine State.keepsFences_asSupervisor ?_
  dsimp only
  split
  · exact State.KeepsFences.refl s
  · next hf =>
    split
    · exact State.KeepsFences.refl s
    · split
      · exact State.KeepsFences.refl s
      · exact State.keepsFences_defined _ _ (by simpa using hf)

theorem keepsFences_decideModify (c : CmdFields) : s.KeepsFences (decideModify p c s).1 := by
  refine State.keepsFences_asSupervisor ?_
  split
  · exact State.KeepsFences.refl s
  · next g hg =>
    split
    · exact State.keepsFences_setSlot hg fun _ => rfl
    · exact State.KeepsFences.refl s

/-- A FREE region that is deleted awaited nothing (R17). -/
theorem keepsFences_decideDelete (c : CmdFields) : s.KeepsFences (decideDelete p c s).1 := by
  refine State.keepsFences_asSupervisor ?_
  split
  · exact State.KeepsFences.refl s
  · next g hg =>
    split
    · next hi =>
      refine (State.regionEvent_setSlot s _ none).keepsFences_of_same rfl fun q => ?_
      have hs := (g.idle_iff.mp hi).1
      rw [State.awaits_of_slot hg, Region.awaits_of_not_draining (by simp [hs]),
        State.awaits_of_none (State.slot_setSlot_self ..)]
    · exact State.KeepsFences.refl s

/-! #### RECLAIM -/

theorem State.keepsFences_reclaimRecords (s : State) (r : RegionIx) (g : Region) : s.KeepsFences (s.reclaimRecords r g) := by
  refine (State.keepsFences_foldl (fun t q => ?_) allPorts s).trans
    (State.keepsFences_foldl (fun t e => t.keepsFences_offer (WaitEntry.port e) _) _ _)
  unfold State.revokeHolder
  split
  · exact State.KeepsFences.refl t
  · exact t.keepsFences_offer q _

section
variable {r : RegionIx} {g : Region}

/-- The records, and a drain that awaits what the region did (R72, R87). -/
theorem State.keepsFences_reclaimed {a : PerPort Bool} (hg : s.slot r = some g) (ha : ∀ q, a.get q = g.awaits q) (p : Port) :
    s.KeepsFences ((s.reclaimRecords r g).setSlot r (some (g.reclaimed p a))) := by
  refine (s.keepsFences_reclaimRecords r g).trans
    (State.keepsFences_setSlot ((s.slot_reclaimRecords r r g).trans hg) fun q => ?_)
  rw [Region.awaits_of_draining (g := g.reclaimed p a) rfl, ha]

/-- The requests to the ports of a set, in ascending order (R66). -/
theorem State.fenceIf_allPorts (s : State) (r : RegionIx) (a : PerPort Bool) :
    allPorts.foldl (fun t q => t.fenceIf r a q) s =
      { s with fenceRequests := s.fenceRequests ++ (allPorts.filter a.get).map fun q => (q, r) } := by
  suffices h : ∀ (l : List Port) (s : State), l.foldl (fun t q => t.fenceIf r a q) s =
      { s with fenceRequests := s.fenceRequests ++ (l.filter a.get).map fun q => (q, r) } from h allPorts s
  intro l
  induction l with
  | nil => intro s; simp
  | cons q l ih =>
    intro s
    rw [List.foldl_cons, ih]
    cases hq : a.get q <;> simp [State.fenceIf, State.sendFence, hq]

/-- A set of ports has one request for each of its ports. -/
theorem count_requests (a : PerPort Bool) (p : Port) (r : RegionIx) :
    ((allPorts.filter a.get).map fun q => (q, r)).count (p, r) = (a.get p).toNat := by
  have hmap : ((allPorts.filter a.get).map fun q => (q, r)).count (p, r) = (allPorts.filter a.get).count p :=
    List.count_map_of_injective _ (fun q => (q, r)) (fun _ _ h => (Prod.mk.inj h).1) p
  rw [hmap]
  cases hp : a.get p
  · exact List.count_eq_zero.mpr fun h => by simp [hp] at h
  · rw [List.count_filter hp]
    cases p <;> rfl

/-- RECLAIM of an EXCLUSIVE region awaits and requests the fence of each holder (R87). -/
theorem State.keepsFences_reclaimHeld (hg : s.slot r = some g) (hn : ∀ d, g.state ≠ .draining d) (p : Port) :
    s.KeepsFences (s.reclaimHeld r g p) := by
  refine (s.keepsFences_reclaimRecords r g).trans ?_
  have hslot := (s.slot_reclaimRecords r r g).trans hg
  unfold State.reclaimHeld
  generalize s.reclaimRecords r g = u at hslot ⊢
  rw [State.fenceIf_allPorts]
  refine State.RegionEvent.keepsFences (r := r) (F := (allPorts.filter g.holderSet.get).map fun q => (q, r))
    ⟨⟨rfl, rfl, rfl, rfl, rfl, rfl, rfl, rfl, rfl, rfl, rfl, rfl, fun _ => rfl⟩,
      fun q h => State.slot_setSlot_of_ne u _ h⟩ rfl (fun x hx => ?_) fun q => ?_
  · obtain ⟨q, -, rfl⟩ := List.mem_map.mp hx
    rfl
  · change _ = ((u.setSlot r (some (g.reclaimed p g.holderSet))).awaits r q).toNat
    rw [count_requests, State.awaits_of_slot hslot, Region.awaits_of_not_draining hn,
      State.awaits_of_slot (State.slot_setSlot_self ..), Region.awaits_of_draining (g := g.reclaimed p g.holderSet) rfl]
    rfl

end

theorem keepsFences_decideReclaim (c : CmdFields) : s.KeepsFences (decideReclaim p c s).1 := by
  refine State.keepsFences_asSupervisor ?_
  split
  · exact State.KeepsFences.refl s
  · next g hg =>
    have idle : (∀ d, g.state ≠ .draining d) → s.KeepsFences (s.reclaimIdle c.region g p) := fun hn =>
      (State.keepsFences_reclaimed hg (fun q => by rw [PerPort.get_all, Region.awaits_of_not_draining hn]) p).trans
        (State.keepsFences_decideDrain _ _)
    split
    · next hs => exact idle (by simp [hs])
    · next hs => exact idle (by simp [hs])
    · next hs => exact State.keepsFences_reclaimHeld hg (by simp [hs]) p
    · next q hs =>
      exact (s.keepsFences_offer q _).trans
        (State.keepsFences_setSlot_sendFence (s := s.offer q (.revoked c.region .proprietor .reclaim)) hg (by simp [hs]) rfl rfl)
    · next d hs =>
      have convert : s.KeepsFences (s.convertDrain c.region g d p) :=
        State.keepsFences_reclaimed hg (fun q => (Region.awaits_of_draining hs q).symm) p
      split
      · exact convert
      · exact convert
      · exact State.KeepsFences.refl s
      · exact State.KeepsFences.refl s
    · exact State.KeepsFences.refl s

theorem keepsFences_decideEvict (hl : s.tableLawful) (c : CmdFields) : s.KeepsFences (decideEvict p c s).1 := by
  refine State.keepsFences_asSupervisor ?_
  split
  · exact State.KeepsFences.refl s
  · have reset := State.keepsFences_resetPort hl c.target none
    generalize s.resetPort c.target none = u at reset ⊢
    exact reset

/-! ### The register window -/

theorem PortIface.path_pop (i : PortIface) : i.pop.path = i.path := by unfold PortIface.pop; split <;> rfl

theorem PortIface.path_placeAperture (i : PortIface) (n : ApertureIx) (f : Placement) (v : Word) :
    (i.placeAperture n f v).path = i.path := by unfold PortIface.placeAperture; split <;> rfl

theorem PortIface.path_writeAttr (i : PortIface) (n : ApertureIx) (v : Word) : (i.writeAttr n v).path = i.path := by
  unfold PortIface.writeAttr
  dsimp only
  split
  · rfl
  · split <;> rfl
  · rfl
  · split <;> rfl

theorem PortIface.path_writeWindow (i : PortIface) (off : BitVec 8) (be : Enables) (v : Word) :
    (i.writeWindow off be v).path = i.path := by
  unfold PortIface.writeWindow
  repeat' split
  all_goals rfl

theorem State.keepsFences_windowEffect (s : State) (p : Port) {f : PortIface → PortIface} (h : ∀ i, (f i).path = i.path) :
    s.KeepsFences (windowEffect p f s) := s.keepsFences_updPort p (h _)

theorem keepsFences_takeSarb (p : Port) (v : Word) (s : State) : s.KeepsFences (takeSarb p v s) := by
  have hc := s.keepsFences_complete p .wrote
  unfold takeSarb
  generalize s.complete p .wrote = u at hc ⊢
  dsimp only
  split
  · exact hc.trans (State.keepsFences_of_same rfl rfl (fun _ => rfl) fun _ _ => rfl)
  · exact hc

/-! ### View accesses -/

theorem State.keepsFences_failRead (s : State) (p : Port) (k : FaultKind) (a : BusAddr) (w : Option (BitVec 18)) :
    s.KeepsFences (s.failRead p k a w) := by
  rw [State.failRead_eq]; exact s.keepsFences_updPort p rfl

theorem State.keepsFences_failWrite (s : State) (p : Port) (k : FaultKind) (a : Half) (w : Option (BitVec 18)) :
    s.KeepsFences (s.failWrite p k a w) := by
  rw [State.failWrite_eq]; exact s.keepsFences_updPort p rfl

theorem State.keepsFences_noteWrite (s : State) (p : Port) (w : StoreAddr) : s.KeepsFences (s.noteWrite p w) := by
  rcases s.noteWrite_cases p w with h | ⟨r, h⟩ <;> rw [h]
  · exact State.KeepsFences.refl s
  · refine (State.regionEvent_setSlot s r _).keepsFences_of_same rfl fun q => ?_
    cases hg : s.slot r with
    | none => exact State.awaits_congr ((State.slot_setSlot_self ..).trans hg.symm) q
    | some g =>
      rw [Option.map_some, State.awaits_of_slot (State.slot_setSlot_self ..), State.awaits_of_slot hg]
      exact Region.awaits_congr (by rw [Region.noteWrite_keeps]) q

/-- A write joins the path: no mark then counts more than the path holds (R62, R128). -/
theorem State.keepsFences_acceptPosted (s : State) (p : Port) (va : Half) (w : StoreWrite) :
    s.KeepsFences (s.acceptPosted p va w) := by
  unfold State.acceptPosted
  split
  · exact s.keepsFences_failWrite p _ va _
  · refine ((s.keepsFences_noteWrite p w.addr).trans ?_).trans (State.keepsFences_complete _ p _)
    refine State.keepsFences_updPort_of_marksKept _ p (f := fun i => { i with posted := i.posted ++ [w] }) rfl
      (PortIface.marksKept_of_writes rfl ?_)
    simp only [PortIface.writesInPath, List.length_append]
    omega

theorem State.keepsFences_acceptBlocking (s : State) (p : Port) (va : Half) (w : StoreWrite) :
    s.KeepsFences (s.acceptBlocking p va w) := by
  unfold State.acceptBlocking
  split
  · exact s.keepsFences_failWrite p _ va _
  · refine (s.keepsFences_noteWrite p w.addr).trans
      (State.keepsFences_updPort_of_marksKept _ p (f := fun i => { i with blocking := some (.write w) }) rfl
        (PortIface.marksKept_of_writes rfl ?_))
    simp only [PortIface.writesInPath]
    split <;> omega

theorem State.keepsFences_acceptHeld (s : State) (p : Port) : s.KeepsFences (s.acceptHeld p) := by
  unfold State.acceptHeld
  split
  · exact State.KeepsFences.refl s
  · split
    · exact (s.keepsFences_updPort p (f := fun i => { i with held := none }) rfl).trans (State.keepsFences_acceptPosted _ p _ _)
    · exact State.KeepsFences.refl s

theorem keepsFences_takeViewWrite (p : Port) (a : BusAddr) (be : Enables) (v : Word) (s : State) :
    s.KeepsFences (takeViewWrite p a be v s) := by
  unfold takeViewWrite
  split
  · exact s.keepsFences_complete p .wrote
  · split
    · exact s.keepsFences_failWrite p _ _ _
    · unfold State.offerPosted
      split
      · exact s.keepsFences_acceptPosted p _ _
      · exact s.keepsFences_updPort p rfl
    · exact s.keepsFences_acceptBlocking p _ _

/-- A view read taken now ends no blocking write that a mark counts. -/
def State.readsClear (s : State) (c : Instr) : Prop :=
  ∀ p a, c = .viewRead p a → (s.port p).blocking = none ∨ (s.port p).fences = []

theorem keepsFences_takeViewRead {a : BusAddr} (h : s.readsClear (.viewRead p a)) : s.KeepsFences (takeViewRead p a s) := by
  unfold takeViewRead
  split
  · exact s.keepsFences_failRead p _ a _
  · split
    · exact s.keepsFences_failRead p _ a _
    · next w _ _ _ _ =>
      refine s.keepsFences_updPort_of_marksKept p (f := fun i => { i with blocking := some (.read w) }) rfl ?_
      rcases h p a rfl with hb | hf
      · exact PortIface.marksKept_of_writes rfl (by simp [PortIface.writesInPath, hb])
      · exact PortIface.marksKept_of_nil hf

/-! ### Every access -/

/-- Every access that an interface takes. -/
theorem keepsFences_takeAccess {c : Instr} (hl : s.tableLawful) (hc : s.readsClear c) : s.KeepsFences (takeAccess c s) := by
  cases c with
  | attach p c => exact State.keepsFences_launch (fun _ _ => keepsFences_decideAttach c) hl
  | detach p c => exact State.keepsFences_launch (fun _ hl => keepsFences_decideDetach hl c) hl
  | acquire p c => exact State.keepsFences_launch (fun _ _ => keepsFences_decideAcquire c) hl
  | cancel p c => exact State.keepsFences_launch (fun _ _ => keepsFences_decideCancel c) hl
  | release p c => exact State.keepsFences_launch (fun _ hl => keepsFences_decideRelease hl c) hl
  | renew p c => exact State.keepsFences_launch (fun _ _ => keepsFences_decideRenew c) hl
  | makePrivate p c => exact State.keepsFences_launch (fun _ hl => keepsFences_decideMakePrivate hl c) hl
  | relinquish p c => exact State.keepsFences_launch (fun _ _ => keepsFences_decideRelinquish c) hl
  | digest p c => exact State.keepsFences_launch (fun _ _ => keepsFences_decideDigest c) hl
  | message p c => exact State.keepsFences_launch (fun _ _ => keepsFences_decideMessage c) hl
  | define p c => exact State.keepsFences_launch (fun _ _ => keepsFences_decideDefine c) hl
  | modify p c => exact State.keepsFences_launch (fun _ _ => keepsFences_decideModify c) hl
  | delete p c => exact State.keepsFences_launch (fun _ _ => keepsFences_decideDelete c) hl
  | reclaim p c => exact State.keepsFences_launch (fun _ _ => keepsFences_decideReclaim c) hl
  | evict p c => exact State.keepsFences_launch (fun _ hl => keepsFences_decideEvict hl c) hl
  | badCommand p w =>
    exact s.keepsFences_windowEffect p (f := fun i => { i with cmd := w, cres := Result.badCommand.code, cresv := 0#32 })
      fun _ => rfl
  | fclr p v => exact s.keepsFences_windowEffect p (f := fun i => { i with fault := none }) fun _ => rfl
  | nmask p v => exact s.keepsFences_windowEffect p (f := fun i => { i with kindMask := v.extractLsb' 1 8 }) fun _ => rfl
  | lwarn p v => exact s.keepsFences_windowEffect p (f := fun i => { i with lwarn := v.extractLsb' 0 16 }) fun _ => rfl
  | fill p v => exact s.keepsFences_windowEffect p (f := fun i => { i with fill := v }) fun _ => rfl
  | npop p v => exact s.keepsFences_windowEffect p PortIface.path_pop
  | sarb p v => exact keepsFences_takeSarb p v s
  | aperturePlacementWrite p n f v => exact s.keepsFences_windowEffect p fun i => i.path_placeAperture n f v
  | attrWrite p n v => exact s.keepsFences_windowEffect p fun i => i.path_writeAttr n v
  | pstatRead p =>
    exact s.keepsFences_updPort p
      (f := fun i => { i with bus := .read (s.pstat p), popEmpty := false, apertureRefused := false }) rfl
  | windowWrite p off be v => exact s.keepsFences_windowEffect p fun i => i.path_writeWindow off be v
  | viewRead p a => exact keepsFences_takeViewRead hc
  | viewWrite p a be v => exact keepsFences_takeViewWrite p a be v s
  | _ => exact State.KeepsFences.refl s

/-- An access offered: taken, waiting, overtaken, or not answered by a next state. -/
theorem keepsFences_hostAccess {c : Instr} {take : State → State} (h : hostAccess p c s take = .next t)
    (ht : s.takes p → s.KeepsFences (take s)) : s.KeepsFences t := by
  obtain ⟨-, ⟨hp, rfl⟩ | ⟨-, ⟨-, rfl⟩ | ⟨-, rfl⟩⟩⟩ := hostAccess_next h
  · exact ht hp
  · exact s.keepsFences_updPort p rfl
  · exact s.keepsFences_updPort p rfl

/-- Every command a host gives through its bus: a port that takes an access has no blocking one (R126). -/
theorem keepsFences_exec_host {c : Instr} (hl : s.tableLawful) (hc : (encodeBus c).isSome = true) (h : exec c s = .next t) :
    s.KeepsFences t := by
  by_cases hv : ∃ p a, c = .viewRead p a
  · obtain ⟨p, a, rfl⟩ := hv
    refine keepsFences_hostAccess (p := p) (take := takeViewRead p a) h fun hp => keepsFences_takeViewRead ?_
    rintro q b hq
    obtain ⟨rfl, rfl⟩ := Instr.viewRead.inj hq
    have hb := hp.2
    rw [PortIface.busHeld, Bool.or_eq_false_iff] at hb
    exact .inl (by simpa using hb.1)
  · obtain ⟨p, hp⟩ := exec_host s hc
    exact keepsFences_hostAccess (hp ▸ h) fun _ => keepsFences_takeAccess hl fun p a hc => absurd ⟨p, a, hc⟩ hv

end Sys2Proof.Machine
end

section
/-! SUPPORT. The law of the fences, kept by every step (O56): the store's slots and the fences' own events move the
account, the resets empty it, and every other event keeps it as the lock engine's operations do. -/

namespace Sys2Proof.Machine

section
variable {s t u : State} {p : Port} {r : RegionIx}

/-! ### A store slot given to a port -/

theorem State.keepsFences_grantSlot {c : Client} (h : s.grantSlot c = some u) : s.KeepsFences u := by
  obtain ⟨-, rfl⟩ := State.grantSlot_some h
  exact State.keepsFences_of_same rfl rfl (fun _ => rfl) fun _ _ => rfl

theorem State.keepsFences_landWrite (s : State) (w : StoreWrite) : s.KeepsFences (s.landWrite w) :=
  State.keepsFences_of_same rfl rfl (fun _ => rfl) fun _ _ => rfl

/-- A mark is left after a landing or completes with it (R63). -/
theorem length_marks (l : List FenceMark) (r : RegionIx) : ((marksLeft l).filter fun m => m.region = r).length +
    ((l.filter fun m => m.count = 1).filter fun m => m.region = r).length = (l.filter fun m => m.region = r).length := by
  unfold marksLeft
  induction l with
  | nil => rfl
  | cons m l ih =>
    by_cases hc : m.count = 1 <;> by_cases hr : m.region = r <;> simp [hc, hr] at ih ⊢ <;> omega

theorem State.completions_countLanding (s : State) (p : Port) :
    (s.countLanding p).completions = s.completions ++ marksDone p (s.port p).fences := by rw [State.countLanding_eq]

theorem State.port_countLanding (s : State) (p q : Port) : (s.countLanding p).port q =
    if q = p then { s.port p with fences := marksLeft (s.port p).fences } else s.port q := by
  rw [State.countLanding_eq]
  exact State.port_updPort s p q fun i => { i with fences := marksLeft i.fences }

theorem State.fences_countLanding (s : State) (p q : Port) : ((s.countLanding p).port q).fences =
    if q = p then marksLeft (s.port p).fences else (s.port q).fences := by
  rw [State.port_countLanding]
  split <;> rfl

/-- The marks a landing completes are reported: their fences stay in flight (R63). -/
theorem State.fencesBalance_countLanding (s : State) (p : Port) : s.FencesBalance (s.countLanding p) := by
  intro q r
  change _ + (s.awaits r q).toNat = _ + (s.awaits r q).toNat
  simp only [State.fencesInFlight, State.fences_countLanding, State.completions_countLanding,
    State.fenceRequests_countLanding, List.count_append, marksDone, count_completions]
  have := length_marks (s.port p).fences r
  split
  · next h =>
    subst h
    omega
  · rfl

/-- After a landing each mark counts one write less, and the path holds one less (R63). -/
theorem PortIface.marksBounded_marksLeft {i j : PortIface} (h : i.marksBounded) (hf : j.fences = marksLeft i.fences)
    (hw : j.writesInPath + 1 = i.writesInPath) : j.marksBounded := by
  intro m hm
  rw [hf] at hm
  obtain ⟨x, hx, rfl⟩ := List.mem_map.mp hm
  obtain ⟨hx, hne⟩ := List.mem_filter.mp hx
  have := h x hx
  simp only [ne_eq, decide_not, Bool.not_eq_eq_eq_not, Bool.not_true, decide_eq_false_iff_not] at hne
  dsimp only
  omega

/-- A landing at port `p`: its write leaves the path as `f` says and is counted (R63, R133). -/
theorem State.fencesLaw_landing {f : PortIface → PortIface} (w : StoreWrite) (hs : s.fencesLaw)
    (hf : (f (s.port p)).fences = (s.port p).fences) (hw : (f (s.port p)).writesInPath + 1 = (s.port p).writesInPath) :
    (((s.landWrite w).updPort p f).countLanding p).fencesLaw := by
  have hport : ∀ q, (((s.landWrite w).updPort p f).port q) = if q = p then f (s.port p) else s.port q :=
    fun q => State.port_updPort (s.landWrite w) p q f
  have left : s.FencesBalance ((s.landWrite w).updPort p f) := State.fencesBalance_of_same rfl rfl (fun q => by
    rw [hport]
    split
    · next h => rw [hf, h]
    · rfl) fun _ _ => rfl
  refine (left.trans (State.fencesBalance_countLanding _ p)).fencesLaw (fun q => ?_) hs
  rw [State.port_countLanding, hport, hport, if_pos rfl]
  split
  · exact PortIface.marksBounded_marksLeft (hs.bounded p) (congrArg marksLeft hf) hw
  · exact hs.bounded q

theorem fencesLaw_postedWriteLanding (hs : s.fencesLaw) (h : exec (.postedWriteLanding p) s = .next t) : t.fencesLaw := by
  obtain rfl := Host.Outcome.next.inj h
  split
  · exact hs
  · rcases s.inSlot_cases (.port p) (State.landPosted p) with h | ⟨u, hu, h⟩ <;> rw [h]
    · exact hs
    · have hu := (State.keepsFences_grantSlot hu).fencesLaw hs
      unfold State.landPosted
      split
      · exact hu
      · next w rest hq =>
        refine (State.keepsFences_acceptHeld _ p).fencesLaw
          (State.fencesLaw_landing (f := fun i => { i with posted := rest }) w hu rfl ?_)
        simp only [PortIface.writesInPath, hq, List.length_cons]
        omega

theorem fencesLaw_blockingWriteLanding (hs : s.fencesLaw) (h : exec (.blockingWriteLanding p) s = .next t) : t.fencesLaw := by
  obtain rfl := Host.Outcome.next.inj h
  split
  · split
    · next w hb =>
      rcases s.inSlot_cases (.port p) (State.landBlocking p w) with h | ⟨u, hu, h⟩ <;> rw [h]
      · exact hs
      · refine State.fencesLaw_landing (f := fun i => { i with blocking := none, bus := .wrote }) w
          ((State.keepsFences_grantSlot hu).fencesLaw hs) rfl ?_
        simp only [PortIface.writesInPath, State.port_grantSlot hu, hb]
    · exact hs
    · exact hs
  · exact hs

theorem keepsFences_blockingReadSlot (h : exec (.blockingReadSlot p) s = .next t) : s.KeepsFences t := by
  obtain rfl := Host.Outcome.next.inj h
  split
  · split
    · next w hb =>
      rcases s.inSlot_cases (.port p) (State.readBlocking p w) with h | ⟨u, hu, h⟩ <;> rw [h]
      · exact State.KeepsFences.refl s
      · refine (State.keepsFences_grantSlot hu).trans (State.keepsFences_updPort_of_marksKept u p
          (f := fun i => { i with blocking := none, bus := .read (u.store.readWord w) }) rfl (PortIface.marksKept_of_writes rfl ?_))
        simp [PortIface.writesInPath, State.port_grantSlot hu, hb]
    · exact State.KeepsFences.refl s
    · exact State.KeepsFences.refl s
  · exact State.KeepsFences.refl s

/-! ### Requests and completions -/

/-- A list with one occurrence of a member taken out, counted. -/
theorem count_erase_of_mem {α : Type} [BEq α] [LawfulBEq α] {l : List α} {a : α} (h : a ∈ l) (b : α) :
    (l.erase a).count b + (if a == b then 1 else 0) = l.count b := by
  have := List.count_pos_iff.mpr h
  rw [List.count_erase]
  by_cases he : a = b
  · subst he
    simp
    omega
  · simp [he]

/-- A request taken: completed at once, or a mark that counts the writes in the path (R62). -/
theorem fencesLaw_fenceRequest (hs : s.fencesLaw) (h : exec (.fenceRequest p r) s = .next t) : t.fencesLaw := by
  obtain rfl := Host.Outcome.next.inj h
  split
  · next hm =>
    have taken := count_erase_of_mem (show (p, r) ∈ s.fenceRequests by simpa using hm)
    unfold State.takeFence
    split
    · refine State.FencesBalance.fencesLaw (s := s) (fun q x => ?_) hs.bounded hs
      change (s.fenceRequests.erase (p, r)).count (q, x) + ((s.port q).fences.filter fun m => m.region = x).length +
        (s.completions ++ [(p, r)]).count (q, x) + (s.awaits x q).toNat = _ + (s.awaits x q).toNat
      have := taken (q, x)
      rw [List.count_append, List.count_singleton, State.fencesInFlight]
      by_cases he : (q, x) = (p, r)
      · simp only [he, beq_self_eq_true, if_true] at this ⊢
        omega
      · simp only [beq_iff_eq, Ne.symm he, if_false] at this ⊢
        omega
    · next hn =>
      have hn : (s.port p).writesInPath ≠ 0 := hn
      refine State.FencesBalance.fencesLaw (s := s) (fun q x => ?_) (fun q => ?_) hs
      · have := taken (q, x)
        change (s.fenceRequests.erase (p, r)).count (q, x) +
          (((s.updPort p fun i => { i with fences := i.fences ++ [⟨r, i.writesInPath⟩] }).port q).fences.filter
            fun m => m.region = x).length + s.completions.count (q, x) + (s.awaits x q).toNat = _ + (s.awaits x q).toNat
        rw [State.port_updPort, State.fencesInFlight]
        by_cases hq : q = p
        · subst hq
          by_cases hx : x = r
          · subst hx
            simp at this ⊢
            omega
          · simp [hx, Ne.symm hx] at this ⊢
        · simp [hq] at this ⊢
      · change ((s.updPort p fun i => { i with fences := i.fences ++ [⟨r, i.writesInPath⟩] }).port q).marksBounded
        rw [State.port_updPort]
        split
        · intro m hm
          rcases List.mem_append.mp hm with hm | hm
          · exact hs.bounded p m hm
          · rw [List.mem_singleton.mp hm]
            exact ⟨Nat.one_le_iff_ne_zero.mpr hn, Nat.le_refl _⟩
        · exact hs.bounded q
  · exact hs

/-- A region that has taken port `p`'s completion awaits the others it awaited (R65). -/
theorem Region.awaits_fenceDone (g : Region) (p q : Port) : (g.fenceDone p).awaits q = (g.awaits q && decide (q ≠ p)) := by
  unfold Region.fenceDone
  split
  · next d hd =>
    rw [Region.awaits_of_draining (d := { d with awaited := d.awaited.set p false }) rfl, Region.awaits_of_draining hd,
      PerPort.get_set]
    split <;> simp_all
  · next hd => rw [Region.awaits_of_not_draining fun d h => hd d h, Bool.false_and]

theorem State.awaits_updRegion_fenceDone (s : State) (r x : RegionIx) (p q : Port) :
    (s.updRegion r fun g => g.fenceDone p).awaits x q = (s.awaits x q && decide ((q, x) ≠ (p, r))) := by
  by_cases hx : x = r
  · subst hx
    cases hg : s.slot x with
    | none => rw [State.awaits_of_none hg, State.awaits_of_none (by rw [State.slot_updRegion, if_pos rfl, hg]; rfl), Bool.false_and]
    | some g =>
      rw [State.awaits_of_slot hg, State.awaits_of_slot (g := g.fenceDone p) (by rw [State.slot_updRegion, if_pos rfl, hg]; rfl),
        Region.awaits_fenceDone]
      simp
  · rw [State.awaits_congr (s := s) (by rw [State.slot_updRegion, if_neg hx])]
    simp [hx]

/-- A completion taken: what is reported was in flight, so the region awaits it, and the two leave together (R65). -/
theorem fencesLaw_fenceCompletion (hs : s.fencesLaw) (h : exec (.fenceCompletion p r) s = .next t) : t.fencesLaw := by
  obtain rfl := Host.Outcome.next.inj h
  split
  · next hm =>
    have hm : (p, r) ∈ s.completions := by simpa using hm
    have hw : s.awaits r p = true := by
      have hpos := List.count_pos_iff.mpr hm
      have := hs.1 p r
      unfold State.fencesInFlight at this
      by_contra hn
      rw [if_neg hn] at this
      omega
    dsimp only
    rw [if_pos (show ({ s with completions := s.completions.erase (p, r) } : State).awaits r p = true from hw)]
    refine (State.keepsFences_decideDrain _ r).fencesLaw (State.FencesBalance.fencesLaw (s := s) (fun q x => ?_) hs.bounded hs)
    change s.fenceRequests.count (q, x) + ((s.port q).fences.filter fun m => m.region = x).length +
      (s.completions.erase (p, r)).count (q, x) + _ = _ + ((s.updRegion r fun g => g.fenceDone p).awaits x q).toNat
    have := count_erase_of_mem hm (q, x)
    rw [State.awaits_updRegion_fenceDone, State.fencesInFlight]
    by_cases he : (q, x) = (p, r)
    · obtain ⟨rfl, rfl⟩ := Prod.mk.inj he
      simp [hw] at this ⊢
      omega
    · simp [he] at this ⊢
  · exact hs

/-! ### The sweep engine's events -/

/-- With each region in the state it was in, nothing else of a fence moved. -/
theorem State.keepsFences_of_states (hr : t.fenceRequests = s.fenceRequests) (hc : t.completions = s.completions)
    (hp : ∀ p, (t.port p).path = (s.port p).path)
    (hst : ∀ r, (t.slot r).map Region.state = (s.slot r).map Region.state) : s.KeepsFences t := by
  refine State.keepsFences_of_same hr hc hp fun r p => ?_
  have := hst r
  cases hg : s.slot r with
  | none =>
    rw [hg, Option.map_none, Option.map_eq_none_iff] at this
    rw [State.awaits_of_none hg, State.awaits_of_none this]
  | some g =>
    rw [hg, Option.map_some, Option.map_eq_some_iff] at this
    obtain ⟨k, hk, he⟩ := this
    rw [State.awaits_of_slot hg, State.awaits_of_slot hk, Region.awaits_congr he]

theorem State.state_takeStart (s : State) (r : RegionIx) :
    (s.takeStart.slot r).map Region.state = (s.slot r).map Region.state := by
  rcases s.takeStart_cases with ⟨-, h⟩ | ⟨q, rest, -, h⟩ <;> rw [h]
  change ((s.updRegion q fun g => { g with job := g.job.map JobMark.started }).slot r).map Region.state = _
  rw [State.slot_updRegion]
  split
  · next hr => rw [hr, Option.map_map]; rfl
  · rfl

theorem State.keepsFences_takeStart (s : State) : s.KeepsFences s.takeStart :=
  State.keepsFences_of_states (by simp) (by simp) (by simp) s.state_takeStart

theorem State.keepsFences_startHead (s : State) : s.KeepsFences s.startHead :=
  State.keepsFences_of_same (by simp) (by simp) (by simp) fun _ _ => State.awaits_congr (by simp) _

theorem State.keepsFences_startNext (s : State) : s.KeepsFences s.startNext := by
  unfold State.startNext
  split
  · exact s.keepsFences_startHead.trans s.startHead.keepsFences_takeStart
  · exact s.keepsFences_startHead

theorem State.keepsFences_advanceJob (s : State) (x : Progress) : s.KeepsFences (s.advanceJob x) := by
  unfold State.advanceJob
  split
  · exact State.keepsFences_of_same rfl rfl (fun _ => rfl) fun _ _ => rfl
  · exact (State.keepsFences_of_same (s := s) (t := { s with current := none, reports := s.reports ++ [x.report] }) rfl rfl
      (fun _ => rfl) fun _ _ => rfl).trans (State.keepsFences_startNext _)

theorem keepsFences_wipeWord (h : exec .wipeWord s = .next t) : s.KeepsFences t := by
  obtain rfl := Host.Outcome.next.inj h
  split
  · exact State.KeepsFences.refl s
  · next x _ =>
    split
    · rcases s.inSlot_cases .engine (State.wipeStep x) with h | ⟨u, hu, h⟩ <;> rw [h]
      · exact State.KeepsFences.refl s
      · exact ((State.keepsFences_grantSlot hu).trans (State.keepsFences_landWrite u _)).trans
          (State.keepsFences_advanceJob _ x)
    · exact State.KeepsFences.refl s

theorem keepsFences_digestWord (h : exec .digestWord s = .next t) : s.KeepsFences t := by
  obtain rfl := Host.Outcome.next.inj h
  split
  · exact State.KeepsFences.refl s
  · next x _ =>
    split
    · rcases s.inSlot_cases .engine (State.digestStep x) with h | ⟨u, hu, h⟩ <;> rw [h]
      · exact State.KeepsFences.refl s
      · exact (State.keepsFences_grantSlot hu).trans (State.keepsFences_advanceJob _ _)
    · exact State.KeepsFences.refl s

theorem State.keepsFences_endSweep (s : State) : s.KeepsFences s.endSweep := by
  rcases s.endSweep_cases with h | ⟨-, -, h⟩ <;> rw [h]
  · exact State.KeepsFences.refl s
  · exact State.keepsFences_of_same rfl rfl (fun _ => rfl) fun _ _ => rfl

theorem keepsFences_sweepWord (h : exec .sweepWord s = .next t) : s.KeepsFences t := by
  obtain rfl := Host.Outcome.next.inj h
  split
  · split
    · exact State.KeepsFences.refl s
    · next n _ =>
      rcases s.inSlot_cases .engine (State.sweepStep n) with h | ⟨u, hu, h⟩ <;> rw [h]
      · exact State.KeepsFences.refl s
      · exact ((State.keepsFences_grantSlot hu).trans (State.keepsFences_of_same (s := u)
          (t := { u.zeroWord n with swept := u.swept + 1 }) rfl rfl (fun _ => rfl) fun _ _ => rfl)).trans (State.keepsFences_endSweep _)
  · exact State.KeepsFences.refl s

theorem State.keepsFences_offerTo (s : State) (q : Option Port) (x : Record) : s.KeepsFences (s.offerTo q x) := by
  cases q with
  | none => exact State.KeepsFences.refl s
  | some p => exact s.keepsFences_offer p x

/-- A completion leaves the list of those reported. -/
theorem State.keepsFences_dropReport (s : State) (l : List Report) : s.KeepsFences { s with reports := l } :=
  State.keepsFences_of_same rfl rfl (fun _ => rfl) fun _ _ => rfl

/-- A region with a WIPE job is being wiped, so it awaits no port (R5). -/
theorem Region.lawful.wiping_of_wipe {g : Region} {j : JobMark} (hl : g.lawful) (hj : g.job = some j) (hk : j.kind = .wipe) :
    g.state = .wiping := by
  have h := hl.2.1
  unfold Region.jobLaw at h
  split at h
  case h_6 hs => exact hs
  case h_4 =>
    split at h
    case h_1 => exact absurd (hk.symm.trans (h j hj)) nofun
    all_goals exact absurd (hj.symm.trans h) nofun
  case h_1 | h_2 => exact absurd (hk.symm.trans (h j hj)) nofun
  all_goals exact absurd (hj.symm.trans h) nofun

theorem State.keepsFences_finishWipe {g : Region} (hg : s.slot r = some g) (hw : g.state = .wiping) (q : Option Port) :
    s.KeepsFences (s.finishWipe r g q) := by
  refine ((State.keepsFences_setSlot (k := g.wiped) hg fun p => ?_).trans (State.keepsFences_offerTo _ q _)).trans
    (State.keepsFences_grantPass _ r)
  have wiped : g.wiped.awaits p = false :=
    Region.awaits_of_not_draining (fun d => show RegionState.free ≠ .draining d from nofun) p
  rw [wiped, Region.awaits_of_not_draining fun d hd => by rw [hw] at hd; cases hd]

theorem State.keepsFences_finishDigest {g : Region} (hg : s.slot r = some g) (q : Option Port) (v : Word) :
    s.KeepsFences (s.finishDigest r g q v) := by
  refine (((State.keepsFences_setSlot (k := g.digested v) hg fun p => rfl).trans
    (State.keepsFences_offerTo _ q (.digestDone r g.generation v))).trans (State.keepsFences_grantPass _ r)).trans ?_
  unfold State.finishDigest State.afterDigest
  split
  · exact State.keepsFences_decideDrain _ r
  · exact State.KeepsFences.refl _

theorem keepsFences_wipeCompletion (hl : s.tableLawful) (h : exec (.wipeCompletion r) s = .next t) : s.KeepsFences t := by
  obtain rfl := Host.Outcome.next.inj h
  split
  · next r' rest _ =>
    have drop := s.keepsFences_dropReport rest
    split
    · next hr =>
      obtain ⟨rfl, -⟩ := hr
      split
      · next g hg =>
        split
        · next b q hj =>
          exact drop.trans (State.keepsFences_finishWipe (s := { s with reports := rest }) hg
            ((hl r' g hg).wiping_of_wipe hj rfl) q)
        · exact drop
      · exact drop
    · exact State.KeepsFences.refl s
  · exact State.KeepsFences.refl s

theorem keepsFences_digestCompletion (h : exec (.digestCompletion r) s = .next t) : s.KeepsFences t := by
  obtain rfl := Host.Outcome.next.inj h
  split
  · next r' v rest _ =>
    have drop := s.keepsFences_dropReport rest
    split
    · next hr =>
      obtain ⟨rfl, -⟩ := hr
      split
      · next g hg =>
        split
        · next b q _ =>
          exact drop.trans (State.keepsFences_finishDigest (s := { s with reports := rest }) hg q v)
        · exact drop
      · exact drop
    · exact State.KeepsFences.refl s
  · exact State.KeepsFences.refl s

/-! ### The pins -/

theorem State.keepsFences_setLine (s : State) (p : Port) (low : Bool) : s.KeepsFences (s.setLine p low) :=
  State.keepsFences_updPort s p rfl

/-- The access that waits at port `p` is taken (R166, R171). -/
theorem State.keepsFences_resume (hl : s.tableLawful) (hc : ∀ c, (s.port p).waiting = some c → s.readsClear c) :
    s.KeepsFences (s.resume p) := by
  unfold State.resume
  split
  · split
    · exact State.KeepsFences.refl s
    · next c hw =>
      have cleared : s.KeepsFences (s.updPort p fun i => { i with waiting := none }) := s.keepsFences_updPort p rfl
      refine cleared.trans (keepsFences_takeAccess hl fun q a he => ?_)
      have := hc c hw q a he
      rw [State.port_updPort]
      split
      · next hq => rw [hq] at this; exact this
      · exact this
  · exact State.KeepsFences.refl s

theorem keepsFences_portReset (hl : s.tableLawful) (h : exec (.portReset p) s = .next t) : s.KeepsFences t := by
  obtain rfl := Host.Outcome.next.inj h
  split
  · exact State.KeepsFences.refl s
  · split
    · exact s.keepsFences_setLine p true
    · exact (s.keepsFences_setLine p true).trans
        (State.keepsFences_resetPort (s := s.setLine p true) (fun r g hg => hl r g hg) p _)

/-- An access that waits is its own port's, and its port's path is empty (R166). -/
theorem State.busLaw.readsClear (hb : s.busLaw) {c : Instr} (hw : (s.port p).waiting = some c) : s.readsClear c := by
  rintro q a rfl
  obtain ⟨hpath, -, hwait⟩ := hb p
  obtain ⟨hserved, -, hport⟩ := hwait _ hw
  obtain rfl : q = p := Option.some.inj hport
  exact .inr (hpath hserved).2.2.2.2

theorem keepsFences_portResetRelease (hl : s.tableLawful) (hb : s.busLaw) (h : exec (.portResetRelease p) s = .next t) :
    s.KeepsFences t := by
  obtain rfl := Host.Outcome.next.inj h
  split
  · refine (s.keepsFences_setLine p false).trans (State.keepsFences_resume hl fun c hw q a he => ?_)
    have hport : ∀ x, (s.setLine p false).port x = if x = p then { s.port p with resetLow := false } else s.port x :=
      fun x => State.port_updPort s p x _
    rw [hport, if_pos rfl] at hw
    have := hb.readsClear hw q a he
    rw [hport]
    split
    · next hq => rw [hq] at this; exact this
    · exact this
  · exact State.KeepsFences.refl s

/-- While RST_n is low every fence list is empty (R171), so any access may be resumed as it rises. -/
theorem keepsFences_resetRelease {b : BitVec 2} (hl : s.tableLawful) (hb : s.busLaw)
    (h : exec (.resetRelease b) s = .next t) : s.KeepsFences t := by
  obtain rfl := Host.Outcome.next.inj h
  split
  · next hr =>
    have hnil : ∀ p, (s.port p).fences = [] := fun p => ((hb p).1 (by simp [State.served, hr])).2.2.2.2
    have rise : s.KeepsFences ({ s with rstLow := false, supervisor := some (.ofBits b) } : State).endSweep :=
      (State.keepsFences_of_same (s := s) (t := { s with rstLow := false, supervisor := some (.ofBits b) }) rfl rfl (fun _ => rfl)
        fun _ _ => rfl).trans (State.keepsFences_endSweep _)
    have hv := (State.sweepStep_endSweep { s with rstLow := false, supervisor := some (.ofBits b) }).1.tableStep.tableLawful hl
    refine (State.foldl_keeps (P := fun u => u.tableLawful ∧ s.KeepsFences u) (fun u q ⟨hu, hk⟩ => ?_) allPorts
      ⟨hv, rise⟩).2
    refine ⟨(u.effect_resume q).table.tableLawful hu, hk.trans (State.keepsFences_resume hu fun c _ p a _ => .inr ?_)⟩
    exact List.subset_nil.mp (hnil p ▸ (hk.marks p).subset)
  · exact State.KeepsFences.refl s

/-- After a part reset no region is defined and no fence is in flight (R168, R169). -/
theorem State.fencesLaw_partReset (s : State) (b : List Instr) (l : List Extent) : (s.partReset b l).fencesLaw := by
  have hport : ∀ p, ((s.partReset b l).port p).fences = [] := fun p => by cases p <;> rfl
  refine ⟨fun p r => ?_, fun p => ?_⟩
  · rw [State.awaits_of_none ((s.partReset_blank b l).slot r), State.fencesInFlight, hport]
    rfl
  · unfold PortIface.fencesLaw
    rw [hport]
    exact ⟨List.nodup_nil, nofun⟩

/-! ### Every step -/

theorem fencesLaw_exec {c : Instr} (hl : s.tableLawful) (hb : s.busLaw) (hs : s.fencesLaw) (h : exec c s = .next t) :
    t.fencesLaw := by
  cases c
  case postedWriteAccept p => exact Host.Outcome.next.inj h ▸ (s.keepsFences_acceptHeld p).fencesLaw hs
  case postedWriteLanding => exact fencesLaw_postedWriteLanding hs h
  case blockingWriteLanding => exact fencesLaw_blockingWriteLanding hs h
  case blockingReadSlot => exact (keepsFences_blockingReadSlot h).fencesLaw hs
  case wipeWord => exact (keepsFences_wipeWord h).fencesLaw hs
  case digestWord => exact (keepsFences_digestWord h).fencesLaw hs
  case sweepWord => exact (keepsFences_sweepWord h).fencesLaw hs
  case startupSweepEnd => exact Host.Outcome.next.inj h ▸ s.keepsFences_endSweep.fencesLaw hs
  case fenceRequest => exact fencesLaw_fenceRequest hs h
  case fenceCompletion => exact fencesLaw_fenceCompletion hs h
  case drainEnd r => exact Host.Outcome.next.inj h ▸ (s.keepsFences_decideDrain r).fencesLaw hs
  case leaseTick =>
    obtain rfl := Host.Outcome.next.inj h
    split
    · exact hs
    · exact (State.keepsFences_takeTick hl).fencesLaw hs
  case leaseExpiry r => exact Host.Outcome.next.inj h ▸ (State.expireRegion_of_lawful hl r).symm ▸ hs
  case jobStart => exact Host.Outcome.next.inj h ▸ (s.keepsFences_startHead.trans s.startHead.keepsFences_takeStart).fencesLaw hs
  case wipeCompletion => exact (keepsFences_wipeCompletion hl h).fencesLaw hs
  case digestCompletion => exact (keepsFences_digestCompletion h).fencesLaw hs
  case portReset => exact (keepsFences_portReset hl h).fencesLaw hs
  case portResetRelease => exact (keepsFences_portResetRelease hl hb h).fencesLaw hs
  case warmReset =>
    obtain rfl := Host.Outcome.next.inj h
    split
    · exact hs
    · split <;> exact s.fencesLaw_partReset _ _
  case resetRelease b => exact (keepsFences_resetRelease hl hb h).fencesLaw hs
  case powerOn => exact Host.Outcome.next.inj h ▸ s.fencesLaw_partReset [] [⟨0, Config.storePages⟩]
  case aperturePlacementWrite p n f v => exact (keepsFences_exec_host hl (by cases f <;> rfl) h).fencesLaw hs
  all_goals exact (keepsFences_exec_host hl rfl h).fencesLaw hs

end

/-- Settles O56: every event moves the fences in flight as it moves what the regions await. -/
theorem stepKeepsFencesLaw : Obligations.StepKeepsFencesLaw := by
  rintro s t ⟨-, hr, -, -, -, -, -, hb, hs, -⟩ h
  have hl : s.tableLawful := hr.1
  unfold step at h
  split at h
  · obtain rfl := Host.Outcome.next.inj h
    unfold State.refclkPeriod
    split
    · exact hs
    · split
      · exact hs
      · exact (State.keepsFences_takeTick hl).fencesLaw hs
  · next c rest _ => exact fencesLaw_exec (s := { s with pending := rest }) hl hb hs h

end Sys2Proof.Machine
end

section
/-! SUPPORT. The handover's short rows: a fence request and its completion, the end of a drain by its reason, and the
completion of a DIGEST (O33 to O35, O40). -/

namespace Sys2Proof.Machine

section
variable {s : State} {p : Port} {r : RegionIx} {g : Region} {d : Drain}

/-! ### Requests and completions -/

/-- The count a mark takes (R62). -/
theorem PortIface.writesInPath_eq (i : PortIface) :
    i.writesInPath = i.posted.length + (match i.blocking with | some (.write _) => 1 | _ => 0) := by
  rcases hb : i.blocking with _ | ⟨_ | _⟩ <;> simp [PortIface.writesInPath, hb]

theorem exec_fenceRequest_of_mem (h : (p, r) ∈ s.fenceRequests) : exec (.fenceRequest p r) s =
    .next ({ s with fenceRequests := s.fenceRequests.erase (p, r) }.takeFence p r) :=
  congrArg Host.Outcome.next (if_pos (by simpa using h))

theorem exec_fenceCompletion_of_awaited (h : (p, r) ∈ s.completions) (hw : s.awaits r p = true) :
    exec (.fenceCompletion p r) s =
      .next ((({ s with completions := s.completions.erase (p, r) } : State).updRegion r fun g => g.fenceDone p).decideDrain r) :=
  congrArg Host.Outcome.next ((if_pos (by simpa using h)).trans (if_pos hw))

theorem exec_fenceCompletion_of_not_awaited (h : (p, r) ∈ s.completions) (hw : s.awaits r p = false) :
    exec (.fenceCompletion p r) s = .next { s with completions := s.completions.erase (p, r) } :=
  congrArg Host.Outcome.next ((if_pos (by simpa using h)).trans (if_neg (by simp [State.awaits] at hw ⊢; exact hw)))

theorem Region.fenceDone_of_draining (h : g.state = .draining d) (p : Port) :
    g.fenceDone p = { g with state := .draining ⟨d.reason, d.awaited.set p false⟩ } := by
  simp only [Region.fenceDone, h]

theorem State.updRegion_of_slot (h : s.slot r = some g) (f : Region → Region) :
    s.updRegion r f = s.setSlot r (some (f g)) := by simp [State.updRegion, h]

/-! ### The end of a drain -/

theorem State.decideDrain_of_draining (hg : s.slot r = some g) (hs : g.state = .draining d) :
    s.decideDrain r = if g.drainOver d then s.endDrain r g d else s := by
  simp only [State.decideDrain, hg, hs]

/-- A drain goes on while it awaits a port or, for RECLAIM, a job is attached (R67). -/
theorem State.decideDrain_of_going (hg : s.slot r = some g) (hs : g.state = .draining d)
    (h : (∃ p, d.awaited.get p = true) ∨ ((∃ q, d.reason = .reclaim q) ∧ g.job ≠ none)) : s.decideDrain r = s := by
  rw [State.decideDrain_of_draining hg hs, if_neg]
  rw [Region.drainOver, Bool.and_eq_true]
  rintro ⟨hempty, hjob⟩
  rcases h with ⟨p, hp⟩ | ⟨⟨q, hq⟩, hj⟩
  · exact absurd (hp.symm.trans (d.awaited.isEmpty_iff.mp hempty p)) nofun
  · rw [hq] at hjob
    exact hj (Option.isNone_iff_eq_none.mp hjob)

/-- With nothing awaited and, for RECLAIM, no job attached the drain ends (R67). -/
theorem State.decideDrain_of_over (hg : s.slot r = some g) (hs : g.state = .draining d)
    (h : ∀ p, d.awaited.get p = false) (hj : ∀ q, d.reason = .reclaim q → g.job = none) :
    s.decideDrain r = s.endDrain r g d := by
  rw [State.decideDrain_of_draining hg hs, if_pos]
  rw [Region.drainOver, d.awaited.isEmpty_iff.mpr h]
  cases hd : d.reason with
  | reclaim q => simp [hj q hd]
  | release | define | relinquish => rfl

/-- A job given to a region replaces what its slot held. -/
theorem State.withJob_setSlot (s : State) (r : RegionIx) (x : Option Region) (g : Region) (k : JobKind) (q : Option Port) :
    (s.setSlot r x).withJob r g k q = s.withJob r g k q := by
  by_cases h : s.engineFree
  · have h' : (s.setSlot r x).engineFree := h
    simp only [State.withJob, if_pos h, if_pos h', State.setSlot_setSlot]
    rfl
  · have h' : ¬ (s.setSlot r x).engineFree := h
    simp only [State.withJob, if_neg h, if_neg h', State.setSlot_setSlot]
    rfl

theorem State.startWipe_eq (s : State) (r : RegionIx) (g : Region) (q : Port) :
    s.startWipe r g q = s.withJob r { g with state := .wiping } .wipe (some q) := by
  rw [State.startWipe, State.queueJob_of_slot _ _ (State.slot_setSlot_self ..), State.withJob_setSlot]

theorem State.settle_eq (s : State) (r : RegionIx) (g : Region) (e : EndedHold) :
    s.settle r g e = State.grantPass (if e.wrote && g.attrs.digestOnRelease then
      s.withJob r (g.settled e) .digest none else s.setSlot r (some (g.settled e))) r := by
  unfold State.settle State.autoDigest
  rw [State.queueJob_of_slot _ _ (State.slot_setSlot_self ..), State.withJob_setSlot]

/-! ### The completion of a DIGEST -/

theorem exec_digestCompletion {v : Word} {rest : List Report} {b : Bool} {q : Option Port} (hy : s.reports = .digest r v :: rest)
    (hg : s.slot r = some g) (hj : g.job = some ⟨.digest, b, q⟩) (ht : r ∉ s.starts) :
    exec (.digestCompletion r) s = .next ({ s with reports := rest }.finishDigest r g q v) := by
  change Host.Outcome.next _ = _
  simp only [hy, hg, hj, (s.startTaken_iff r).mpr ht, and_self, if_true]

/-- A record offered to a requester reaches an ATTACHED one (R102, R160). -/
theorem State.offerTo_some (s : State) (p : Port) (x : Record) : s.offerTo (some p) x =
    if (s.port p).state = .attached then s.updPort p fun i => { i with notes := appendDevice i.notes x } else s := by
  rw [State.offerTo]
  cases hp : (s.port p).state with
  | attached => rw [State.offer_of_attached x hp, if_pos rfl]
  | detached => rw [State.offer_of_detached x hp, if_neg nofun]

theorem State.slot_offerTo (s : State) (q : Option Port) (x : Record) (r : RegionIx) : (s.offerTo q x).slot r = s.slot r := by
  cases q <;> rfl

theorem State.finishDigest_of_not_reclaim (q : Option Port) (v : Word)
    (h : ∀ d x, g.state = .draining d → d.reason ≠ .reclaim x) : s.finishDigest r g q v =
      ((s.setSlot r (some (g.digested v))).offerTo q (.digestDone r g.generation v)).grantPass r := by
  unfold State.finishDigest State.afterDigest
  split
  · next x a hs => exact absurd rfl (h _ x hs)
  · rfl

/-- While the region drains for RECLAIM the grant pass grants nothing, and the drain's end is decided (R31, R74). -/
theorem State.finishDigest_of_reclaim {x : Port} (q : Option Port) (v : Word) (hs : g.state = .draining d)
    (hd : d.reason = .reclaim x) : s.finishDigest r g q v =
      ((s.setSlot r (some (g.digested v))).offerTo q (.digestDone r g.generation v)).decideDrain r := by
  obtain ⟨reason, a⟩ := d
  obtain rfl : reason = .reclaim x := hd
  have hpass : (g.digested v).passRun = [] :=
    Region.passRun_of_state (by simp [Region.digested, hs]) (by simp [Region.digested, hs])
  have hslot : ((s.setSlot r (some (g.digested v))).offerTo q (.digestDone r g.generation v)).slot r = some (g.digested v) := by
    rw [State.slot_offerTo, State.slot_setSlot_self]
  rw [State.finishDigest, State.grantPass_of_nil hslot hpass, State.afterDigest, hs]

end

/-! ### The obligations -/

/-- Settles O33: a request with no write in the port's path is completed, and any other marks the path's count. -/
theorem fenceRequestTaken : Obligations.FenceRequestTaken := by
  intro s p r h n
  have count : (s.port p).writesInPath = n := (s.port p).writesInPath_eq
  clear_value n
  subst count
  rw [exec_fenceRequest_of_mem h]
  exact ⟨fun h0 => congrArg Host.Outcome.next (if_pos h0), fun hn => congrArg Host.Outcome.next (if_neg hn)⟩

/-- Settles O34: the completion of an awaited fence is the drain's end decided on the lowered set. -/
theorem fenceCompletionTaken : Obligations.FenceCompletionTaken := by
  intro s p r h
  refine ⟨fun g d hg hs hd => ?_, fun hn => exec_fenceCompletion_of_not_awaited h ?_⟩
  · intro lowered
    have taken : exec (.fenceCompletion p r) s = .next (lowered.decideDrain r) := by
      rw [exec_fenceCompletion_of_awaited h ((State.awaits_of_slot hg p).trans ((Region.awaits_of_draining hs p).trans hd)),
        State.updRegion_of_slot (s := { s with completions := s.completions.erase (p, r) }) hg, Region.fenceDone_of_draining hs]
    refine ⟨⟨_, taken, rfl⟩, fun hgo => ?_⟩
    rw [taken, State.decideDrain_of_going (State.slot_setSlot_self ..) rfl]
    refine hgo.imp_left fun ⟨q, hq, hqw⟩ => ⟨q, ?_⟩
    rw [PerPort.get_set_of_ne _ _ hq, hqw]
  · cases hg : s.slot r with
    | none => exact State.awaits_of_none hg p
    | some g =>
      rw [State.awaits_of_slot hg]
      by_cases hs : ∃ d, g.state = .draining d
      · obtain ⟨d, hs⟩ := hs
        rw [Region.awaits_of_draining hs, hn g d hg hs]
      · exact Region.awaits_of_not_draining (fun d hd => hs ⟨d, hd⟩) p

/-- Settles O35: what the drain's reason makes of the region that has drained. -/
theorem drainEnds : Obligations.DrainEnds := by
  intro s r g d hg hs
  have ends : ∀ {v}, (∀ p, d.awaited.get p = false) → (∀ q, d.reason = .reclaim q → g.job = none) →
      s.endDrain r g d = v → exec (.drainEnd r) s = .next v := fun ha hj hv =>
    congrArg Host.Outcome.next ((State.decideDrain_of_over hg hs ha hj).trans hv)
  refine ⟨fun h => congrArg Host.Outcome.next (State.decideDrain_of_going hg hs h), fun ha => ⟨fun e he => ?_, fun he => ?_,
    fun q he => ?_⟩⟩
  · refine ends ha (fun q hq => absurd (he.symm.trans hq) nofun) ?_
    rw [State.endDrain, he]
    exact s.settle_eq r g e
  · refine ends ha (fun q hq => absurd (he.symm.trans hq) nofun) ?_
    rw [State.endDrain, he]
    rfl
  · rcases he with he | ⟨he, hj⟩
    · refine ends ha (fun q hq => absurd (he.symm.trans hq) nofun) ?_
      rw [State.endDrain, he]
      exact s.startWipe_eq r g q
    · refine ends ha (fun _ _ => hj) ?_
      rw [State.endDrain, he]
      exact s.startWipe_eq r g q

/-- Settles O40: the digest is recorded and its requester told before the grant pass and the drain's end. -/
theorem digestCompletionTaken : Obligations.DigestCompletionTaken := by
  intro s r v rest g b q hy hg hj
  refine ⟨fun ht => ?_, fun ht => ?_⟩
  · change Host.Outcome.next _ = _
    have hn : s.startTaken r = false := Bool.eq_false_iff.mpr fun h => (s.startTaken_iff r).mp h ht
    simp only [hy, hn, Bool.false_eq_true, and_false, if_false]
  · intro tagged told
    have htold : tagged.offerTo q (.digestDone r g.generation v) = told := by
      cases q with
      | none => rfl
      | some p => exact tagged.offerTo_some p _
    rw [exec_digestCompletion hy hg hj ht, ← htold]
    refine ⟨fun h => ?_, fun d x hs hd => ?_⟩
    · rw [State.finishDigest_of_not_reclaim q v h]
      rfl
    · rw [State.finishDigest_of_reclaim q v hs hd]
      rfl

end Sys2Proof.Machine
end

section
/-! SUPPORT. RECLAIM (R87, R88): the one record each involved port is offered, and the state that the command leaves,
written over the state before it; and the obligation on RECLAIM (O17). -/

namespace Sys2Proof.Machine

/-! ### What a command delivers -/

/-- `v` with the requests sent and the interfaces delivered over those of `s`. -/
def State.delivers (s v : State) (F : List (Port × RegionIx)) (P : Port → PortIface) : State :=
  { v with fenceRequests := s.fenceRequests ++ F, ports := .ofFun P }

/-- The interface of a port that is offered `xs`, and answered DONE if it is `p`, which launched `word`. -/
def State.doneAt (s : State) (p : Port) (word : Word) (N : Port → List Record) (q : Port) : PortIface :=
  if q = p then { (s.port q).offered (N q) with cmd := word, cres := 0x00#8, cresv := 0#32, bus := .wrote }
  else (s.port q).offered (N q)

section
variable {s : State} {p : Port} {r : RegionIx} {g k : Region} {word : Word}

/-- A job given to a region that a change has emptied. -/
theorem State.withJob_becomes (s : State) (r : RegionIx) (k h : Region) (F : List (Port × RegionIx)) (N : Port → List Record)
    (j : JobKind) (q : Option Port) : (s.becomes r k F N).withJob r h j q =
      s.delivers (s.withJob r h j q) F fun q => (s.port q).offered (N q) := by
  have hslots := congrArg State.slots (State.setSlot_setSlot s r (some k) (some { h with job := some ⟨j, false, q⟩ }))
  change ((s.becomes r k F N).setSlot r (some { h with job := some ⟨j, false, q⟩ })).slots = _ at hslots
  by_cases hf : s.engineFree
  · have hf' : (s.becomes r k F N).engineFree := hf
    simp only [State.withJob, if_pos hf, if_pos hf', hslots]
    rfl
  · have hf' : ¬ (s.becomes r k F N).engineFree := hf
    simp only [State.withJob, if_neg hf, if_neg hf', hslots]
    rfl

/-- The answer to a launched command, after what its decision delivers. -/
theorem State.answered_delivers (s v : State) (F : List (Port × RegionIx)) (N : Port → List Record) :
    ((s.launched p word).delivers (v.launched p word) F fun q =>
      ((s.launched p word).port q).offered (N q)).answered p 0x00#8 0#32 = s.delivers v F (s.doneAt p word N) := by
  refine State.eq_of_port rfl fun q => ?_
  rw [State.answered, State.port_updPort]
  simp only [State.delivers, State.port, PerPort.get_ofFun, State.doneAt]
  split
  · next h =>
    subst h
    rw [← State.port, State.launched_port, if_pos rfl]
    rfl
  · next h =>
    rw [← State.port, State.launched_port, if_neg h]
    rfl

/-! ### The records of a RECLAIM (R88) -/

/-- The record a port is offered for what it loses of region `g` (R88). -/
def Region.lost (g : Region) (r : RegionIx) (q : Port) : Option Record :=
  if g.state = .ownedBy q then some (.revoked r .proprietor .reclaim)
  else match g.holders.get q with
    | some h => some (.revoked r (if h.mode = .exclusive then .exclusive else .shared) .reclaim)
    | none => if g.queue.any (fun e => e.port = q) then some (.dropped r) else none

/-- The REVOKED record of a holder. -/
def Region.holderNews (g : Region) (r : RegionIx) (q : Port) : List Record :=
  ((g.holders.get q).map fun h => .revoked r h.mode.right .reclaim).toList

theorem State.revokeHolder_becomes (h : s.slot r = some k) (g : Region) (q : Port) :
    s.revokeHolder r g q = s.becomes r k [] (recordsFor q (g.holderNews r q)) := by
  unfold State.revokeHolder Region.holderNews
  split
  · next hq =>
    rw [hq]
    refine (State.self_becomes h).trans (congrArg _ (funext fun x => ?_))
    by_cases hx : x = q <;> simp [recordsFor, noNews]
  · next x hq =>
    rw [hq]
    exact State.offer_becomes h q _

/-- The records of a RECLAIM, as one change that leaves the region. -/
theorem State.reclaimRecords_becomes (hg : s.slot r = some g) : s.reclaimRecords r g =
    s.becomes r g [] fun q => g.holderNews r q ++ (g.queue.filter fun e => e.port = q).map fun _ => .dropped r := by
  have holders : allPorts.foldl (fun t q => t.revokeHolder r g q) s = s.becomes r g [] (g.holderNews r) := by
    rw [State.foldl_ports_becomes (K := fun k _ => k) (F := fun _ _ => []) (M := fun q _ => g.holderNews r q)
      (fun t k q _ hk => State.revokeHolder_becomes hk g q) (fun _ _ _ _ => rfl) allPorts_nodup (State.LockEvent.refl s) hg]
    simp only [mem_allPorts, if_true]
    rfl
  rw [State.reclaimRecords, holders, State.foldl_offer_becomes _ _ (State.slot_becomes ..), State.becomes_becomes]
  rfl

theorem Mode.right_eq (m : Mode) : m.right = if m = .exclusive then .exclusive else .shared := by cases m <;> rfl

/-- A holder does not wait and no port waits twice, so a RECLAIM offers each port at most the one record (R23, R88). -/
theorem Region.lawful.reclaimNews (hl : g.lawful) (hs : ∀ q, g.state ≠ .ownedBy q) (r : RegionIx) (q : Port) :
    (g.holderNews r q ++ (g.queue.filter fun e => e.port = q).map fun _ => .dropped r) = (g.lost r q).toList := by
  obtain ⟨hnodup, hwaits, -⟩ := hl.2.2.1
  rw [Region.lost, if_neg (hs q), Region.holderNews]
  cases hq : g.holders.get q with
  | some h =>
    have hnot : (g.queue.filter fun e => e.port = q) = [] := List.filter_eq_nil_iff.mpr fun e he hp =>
      hwaits q ⟨e, he, by simpa using hp⟩ (Option.isSome_iff_exists.mpr ⟨h, hq⟩)
    simp [hnot, Mode.right_eq]
  | none =>
    by_cases hw : g.waits q
    · obtain ⟨e, he, rfl⟩ := hw
      have hany : (g.queue.any fun x => x.port = e.port) = true := List.any_eq_true.mpr ⟨e, he, by simp⟩
      simp [filter_port_eq_singleton hnodup he, hany]
    · have hnot : (g.queue.filter fun e => e.port = q) = [] := List.filter_eq_nil_iff.mpr fun e he hp =>
        hw ⟨e, he, by simpa using hp⟩
      have hany : (g.queue.any fun e => e.port = q) = false := by
        simpa [List.any_eq_false] using fun e he hp => hw ⟨e, he, hp⟩
      simp [hnot, hany]

/-- A PRIVATE region has no holder and no waiter: its proprietor alone is told (R5, R88). -/
theorem Region.lawful.lost_of_owned {owner : Port} (hl : g.lawful) (hs : g.state = .ownedBy owner) (r : RegionIx) (q : Port) :
    recordsFor owner [.revoked r .proprietor .reclaim] q = (g.lost r q).toList := by
  by_cases h : q = owner
  · subst h
    rw [recordsFor_self, Region.lost, if_pos hs]
    rfl
  · have hq : g.holders.get q = none := by
      have hn := hl.1.none_held (by simp [hs]) (by simp [hs]) q
      simpa using hn
    have hne : g.state ≠ .ownedBy q := by rw [hs]; exact fun e => h (RegionState.ownedBy.inj e).symm
    rw [recordsFor_of_ne _ h, Region.lost, if_neg hne, hq, hl.2.2.1.2.2 owner hs]
    rfl

/-! ### The decisions -/

/-- The region as a RECLAIM leaves it draining, with every record offered (R87, R88). -/
theorem State.reclaimed_becomes (hl : g.lawful) (hs : ∀ q, g.state ≠ .ownedBy q) (hg : s.slot r = some g) (a : PerPort Bool) :
    (s.reclaimRecords r g).setSlot r (some (g.reclaimed p a)) =
      s.becomes r (g.reclaimed p a) [] fun q => (g.lost r q).toList := by
  rw [State.reclaimRecords_becomes hg, State.setSlot_becomes, State.becomes_becomes]
  exact congrArg _ (funext fun q => (List.append_nil _).trans (hl.reclaimNews hs r q))

theorem State.reclaimHeld_becomes (hl : g.lawful) (hs : ∀ q, g.state ≠ .ownedBy q) (hg : s.slot r = some g) :
    s.reclaimHeld r g p = s.becomes r (g.reclaimed p g.holderSet)
      ((allPorts.filter fun q => (g.holders.get q).isSome).map fun q => (q, r)) fun q => (g.lost r q).toList := by
  have hset : (fun q => (g.holders.get q).isSome) = g.holderSet.get := funext fun q =>
    (PerPort.get_ofFun (fun q => (g.holders.get q).isSome) q).symm
  rw [State.reclaimHeld, State.fenceIf_allPorts, State.reclaimed_becomes hl hs hg, hset, State.fenceRequests_becomes,
    List.append_nil]
  rfl

theorem State.reclaimPrivate_becomes {owner : Port} (hl : g.lawful) (hs : g.state = .ownedBy owner) (hg : s.slot r = some g) :
    s.reclaimPrivate r g p owner = s.becomes r (g.reclaimed p (onlyPort owner)) [(owner, r)] fun q => (g.lost r q).toList := by
  rw [State.reclaimPrivate, State.offer_becomes hg, State.setSlot_becomes, State.becomes_becomes,
    State.sendFence_becomes (State.slot_becomes ..), State.becomes_becomes]
  refine congrArg _ (funext fun q => ?_)
  rw [← hl.lost_of_owned hs r q]
  simp [noNews]

/-- With no job attached the drain of a region that no port holds alone ends at once, in the WIPE (R67, R70). -/
theorem State.reclaimIdle_of_no_job (hl : g.lawful) (hs : ∀ q, g.state ≠ .ownedBy q) (hg : s.slot r = some g)
    (hj : g.job = none) :
    s.reclaimIdle r g p = s.delivers
      (s.withJob r { g.reclaimed p (.all false) with state := .wiping } .wipe (some p)) [] fun q =>
        (s.port q).offered (g.lost r q).toList := by
  rw [State.reclaimIdle, State.reclaimed_becomes hl hs hg,
    State.decideDrain_of_over (g := g.reclaimed p (.all false)) (State.slot_becomes ..) rfl (fun q => PerPort.get_all ..) fun _ _ => hj]
  exact (State.startWipe_eq ..).trans (State.withJob_becomes ..)

theorem State.reclaimIdle_of_job (hl : g.lawful) (hs : ∀ q, g.state ≠ .ownedBy q) (hg : s.slot r = some g)
    (hj : g.job ≠ none) :
    s.reclaimIdle r g p = s.becomes r (g.reclaimed p (.all false)) [] fun q => (g.lost r q).toList := by
  rw [State.reclaimIdle, State.reclaimed_becomes hl hs hg]
  exact State.decideDrain_of_going (State.slot_becomes ..) rfl (.inr ⟨⟨p, rfl⟩, hj⟩)

/-! ### The command -/

/-- The jobs of a region that RECLAIM takes without waiting for one (R5). -/
theorem Region.lawful.no_job (hl : g.lawful) (hs : g.state = .exclusive ∨ (∃ q, g.state = .ownedBy q) ∨
    ∃ d, g.state = .draining d ∧ (d.reason = .define ∨ ∃ e, d.reason = .release e)) : g.job = none := by
  have hj := hl.2.1
  rcases hs with hs | ⟨q, hs⟩ | ⟨d, hs, hd | ⟨e, hd⟩⟩ <;> simp only [Region.jobLaw, hs] at hj
  · exact hj
  · exact hj
  · simpa only [hd] using hj
  · simpa only [hd] using hj

section
variable {c : CmdFields} (pass : ∀ k, s.asSupervisor p k = k) (hg : s.slot c.region = some g)

include pass hg

theorem decideReclaim_of_unheld (hs : g.state = .free ∨ g.state = .shared) :
    decideReclaim p c s = (s.reclaimIdle c.region g p, .done, 0#32) := by
  rw [decideReclaim, pass, hg]
  rcases hs with hs | hs <;> simp only [hs]

theorem decideReclaim_of_exclusive (hs : g.state = .exclusive) :
    decideReclaim p c s = (s.reclaimHeld c.region g p, .done, 0#32) := by
  rw [decideReclaim, pass, hg]
  simp only [hs]

theorem decideReclaim_of_ownedBy {q : Port} (hs : g.state = .ownedBy q) :
    decideReclaim p c s = (s.reclaimPrivate c.region g p q, .done, 0#32) := by
  rw [decideReclaim, pass, hg]
  simp only [hs]

theorem decideReclaim_of_converted {d : Drain} (hs : g.state = .draining d)
    (hd : d.reason = .define ∨ ∃ e, d.reason = .release e) :
    decideReclaim p c s = (s.convertDrain c.region g d p, .done, 0#32) := by
  rw [decideReclaim, pass, hg]
  rcases hd with hd | ⟨e, hd⟩ <;> simp only [hs, hd]

theorem decideReclaim_of_pending {d : Drain} {q : Port} (hs : g.state = .draining d)
    (hd : d.reason = .relinquish q ∨ d.reason = .reclaim q) : decideReclaim p c s = refuse s .pending := by
  rw [decideReclaim, pass, hg]
  rcases hd with hd | hd <;> simp only [hs, hd]

theorem decideReclaim_of_wiping (hs : g.state = .wiping) : decideReclaim p c s = refuse s .busy := by
  rw [decideReclaim, pass, hg]
  simp only [hs]

end

/-- A RECLAIM that delivers a change of its region answers DONE (R87, R175). -/
theorem exec_reclaim_of_delivers {c : CmdFields} {v w : State} {F : List (Port × RegionIx)} {N : Port → List Record}
    (ht : s.takes p)
    (hd : decideReclaim p c (s.launched p (c.word 0x43#8)) = (w, .done, 0#32))
    (hw : w = (s.launched p (c.word 0x43#8)).delivers (v.launched p (c.word 0x43#8)) F fun q =>
      ((s.launched p (c.word 0x43#8)).port q).offered (N q)) :
    exec (.reclaim p c) s = .next (s.delivers v F (s.doneAt p (c.word 0x43#8) N)) := by
  subst hw
  exact ((launches_reclaim p c).decided ht hd).trans (congrArg _ (State.answered_delivers s v F N))

/-- A port is offered no record, or one that it takes if it is ATTACHED. -/
theorem PortIface.offered_toList (i : PortIface) (x : Option Record) : i.offered x.toList =
    { i with notes := match i.state, x with
        | .attached, some x => appendDevice i.notes x
        | _, _ => i.notes } := by
  cases hi : i.state <;> cases x <;> simp [PortIface.offered, hi, appendAll]

end

/-! ### The obligation -/

/-- Settles O17: each state's decision is one change of the region, with at most one record to each port. -/
theorem reclaimDecided : Obligations.ReclaimDecided := by
  intro s p c g ⟨⟨ht, hp, ha⟩, hv⟩ hg hl r emptied holderSet lost news reached
  have pass : ∀ k, (s.launched p (c.word 0x43#8)).asSupervisor p k = k := fun k =>
    State.asSupervisor_pass hp ((s.launched_port_state p p _).trans ha) hv
  have hslot : (s.launched p (c.word 0x43#8)).slot r = some g := hg
  have done : ∀ {v : State} {F : List (Port × RegionIx)},
      exec (.reclaim p c) s = .next (s.delivers v F (s.doneAt p (c.word 0x43#8) fun q => (g.lost r q).toList)) →
      ∃ t, exec (.reclaim p c) s = .next t ∧ reached t v F := fun {v F} h => by
    refine ⟨_, h, congrArg (s.delivers v F) (funext fun q => ?_)⟩
    rw [State.doneAt, PortIface.offered_toList]
    rfl
  have lone : ∀ {st : RegionState}, g.state = st → (∀ q, st ≠ .ownedBy q) → ∀ q, g.state ≠ .ownedBy q :=
    fun h hn q => h ▸ hn q
  have unheld : g.state = .free ∨ g.state = .shared → ∀ q, g.state ≠ .ownedBy q := fun h =>
    h.elim (lone · nofun) (lone · nofun)
  have noJob : ∀ {st : RegionState}, g.job = none →
      ({ g with state := st, holders := .all none, queue := [] } : Region) = emptied st none :=
    fun hj => by rw [← hj]; rfl
  refine ⟨fun hs hj => done (exec_reclaim_of_delivers ht (decideReclaim_of_unheld pass hg hs) ?_),
    fun hs hj => done (exec_reclaim_of_delivers ht (decideReclaim_of_unheld pass hg hs) ?_),
    fun hs => done (exec_reclaim_of_delivers ht (decideReclaim_of_exclusive pass hg hs) ?_),
    fun q hs => done (exec_reclaim_of_delivers ht (decideReclaim_of_ownedBy pass hg hs) ?_),
    fun d hs hd => done (exec_reclaim_of_delivers ht (decideReclaim_of_converted pass hg hs hd) ?_),
    fun d q hs hd => (launches_reclaim p c).refused ht (decideReclaim_of_pending pass hg hs hd),
    fun hs => (launches_reclaim p c).refused ht (decideReclaim_of_wiping pass hg hs)⟩
  · rw [← noJob hj, ← State.withJob_launched]
    exact State.reclaimIdle_of_no_job hl (unheld hs) hslot hj
  · exact State.reclaimIdle_of_job hl (unheld hs) hslot hj
  · rw [← noJob (hl.no_job (.inl hs))]
    exact State.reclaimHeld_becomes hl (lone hs nofun) hslot
  · rw [← noJob (hl.no_job (.inr (.inl ⟨q, hs⟩)))]
    exact State.reclaimPrivate_becomes hl hs hslot
  · rw [← noJob (hl.no_job (.inr (.inr ⟨d, hs, hd⟩)))]
    exact State.reclaimed_becomes hl (lone hs nofun) hslot d.awaited

end Sys2Proof.Machine
end

section
/-! SUPPORT. The obligation on MAKE_PRIVATE and RELINQUISH (O12): the entry of a region into PRIVATE and the proprietor's
leave of it (R78, R79, R85). -/

namespace Sys2Proof.Machine

/-- The mode of the EXCLUSIVE holder, as a claim reads it off the hold. -/
theorem Region.exclusiveBy_iff_mode {g : Region} {p : Port} :
    g.exclusiveBy p = true ↔ (g.holders.get p).map Hold.mode = some .exclusive := by
  simp [Region.exclusiveBy]

/-- Port `p` is the proprietor exactly in its own PRIVATE state (R4). -/
theorem RegionState.proprietor_eq_some_iff (x : RegionState) (p : Port) : x.proprietor = some p ↔ x = .ownedBy p := by
  cases x <;> simp [RegionState.proprietor]

/-- Settles O12: the branches of the two decisions in their order. -/
theorem privacyCommandsDecided : Obligations.PrivacyCommandsDecided := by
  intro s p c g hc hg exclusiveHolder
  have ht := hc.1
  have passMake := State.onRegion_launched hc hg (c.word 0x18#8)
  have passRelinquish := State.onRegion_launched hc hg (c.word 0x19#8)
  have hm := launches_makePrivate p c
  have hr := launches_relinquish p c
  have holder : exclusiveHolder → ¬ (!g.exclusiveBy p) = true := fun he => by simp [Region.exclusiveBy_iff_mode.mpr he]
  refine ⟨fun he => hm.refused ht (x := .notHeld) ?_, fun he hp => hm.refused ht (x := .notPermitted) ?_,
    fun he hp hq => hm.refused ht (x := .busy) ?_, fun he hp hq => hm.answers ht (x := .done) ?_,
    fun ho => hr.refused ht (x := .notProprietor) ?_, fun ho => hr.answers ht (x := .done) ?_⟩
  · have hn : g.exclusiveBy p = false := Bool.eq_false_iff.mpr fun h => he (Region.exclusiveBy_iff_mode.mp h)
    rw [decideMakePrivate, passMake, if_pos (by simp [hn])]
  · rw [decideMakePrivate, passMake, if_neg (holder he), if_pos (by simp [hp])]
  · rw [decideMakePrivate, passMake, if_neg (holder he), if_neg (by simp [hp]), if_pos (by simp [hq])]
  · rw [decideMakePrivate, passMake, if_neg (holder he), if_neg (by simp [hp]), if_neg (by simp [hq])]
    rfl
  · rw [decideRelinquish, passRelinquish, if_neg fun h => ho ((g.state.proprietor_eq_some_iff p).mp h)]
  · rw [decideRelinquish, passRelinquish, if_pos ((g.state.proprietor_eq_some_iff p).mpr ho)]
    rfl

end Sys2Proof.Machine
end

section
/-! SUPPORT. The obligations on the CRC, on the completion of a WIPE and on the start-up sweep (O41, O39, O38). -/

namespace Sys2Proof.Machine

/-! ### The CRC -/

/-- Lane by lane and bit by bit the bits of a word are its bits 0 to 31 in order (R99). -/
theorem bits_of_lanes (w : Word) :
    ([0, 1, 2, 3].flatMap fun l => (List.range 8).map fun i => (w.extractLsb' (8 * l) 8).getLsbD i) =
      (List.range 32).map w.getLsbD := by
  have order : List.range 32 = [0, 1, 2, 3].flatMap fun l => (List.range 8).map fun i => 8 * l + i := by decide
  rw [order, List.map_flatMap]
  refine congrArg (fun f => [0, 1, 2, 3].flatMap f) (funext fun l => ?_)
  rw [List.map_map]
  refine List.map_congr_left fun i hi => ?_
  rw [BitVec.getLsbD_extractLsb', decide_eq_true (List.mem_range.mp hi), Bool.true_and, Function.comp_apply]

/-- Settles O41: the model takes bits 0 to 31 in order, which is the order of R99. -/
theorem crcOfDigest : Obligations.CrcOfDigest := by
  unfold Obligations.CrcOfDigest
  intro bit bits
  refine ⟨rfl, fun _ => rfl, fun reg w => ?_⟩
  rw [show bits w = (List.range 32).map w.getLsbD from bits_of_lanes w, List.foldl_map]
  rfl

/-! ### The completion of a WIPE -/

section
variable {s : State} {r : RegionIx} {g : Region} {rest : List Report} {b : Bool} {q : Option Port}

/-- The row of a WIPE's completion, by whether the start of the job still stands (R95, R97). -/
theorem exec_wipeCompletion (hy : s.reports = .wipe r :: rest) (hg : s.slot r = some g) (hj : g.job = some ⟨.wipe, b, q⟩) :
    exec (.wipeCompletion r) s = .next (if s.startTaken r then { s with reports := rest }.finishWipe r g q else s) := by
  change Host.Outcome.next _ = _
  simp only [hy, hg, hj, true_and]

theorem exec_wipeCompletion_of_standing (hy : s.reports = .wipe r :: rest) (hg : s.slot r = some g)
    (hj : g.job = some ⟨.wipe, b, q⟩) (ht : r ∈ s.starts) : exec (.wipeCompletion r) s = .next s := by
  rw [exec_wipeCompletion hy hg hj, if_neg fun h => (s.startTaken_iff r).mp h ht]

theorem exec_wipeCompletion_of_taken (hy : s.reports = .wipe r :: rest) (hg : s.slot r = some g)
    (hj : g.job = some ⟨.wipe, b, q⟩) (ht : r ∉ s.starts) :
    exec (.wipeCompletion r) s = .next ({ s with reports := rest }.finishWipe r g q) := by
  rw [exec_wipeCompletion hy hg hj, if_pos ((s.startTaken_iff r).mpr ht)]

end

/-- Settles O39: the requester, if there is one, is told before the grant pass if it is ATTACHED. -/
theorem wipeCompletionTaken : Obligations.WipeCompletionTaken := by
  intro s r rest g b q hy hg hj
  refine ⟨exec_wipeCompletion_of_standing hy hg hj, fun ht => ?_⟩
  intro freed
  have told : exec (.wipeCompletion r) s =
      .next ((freed.offerTo q (.wipeDone r (g.generation + 1#16))).grantPass r) := exec_wipeCompletion_of_taken hy hg hj ht
  refine ⟨fun hq => ?_, fun p hq hp => ?_, fun p hq hp => ?_⟩
  · rw [told, hq, State.offerTo]
  · have hp : (freed.port p).state = .attached := hp
    rw [told, hq, State.offerTo_some, if_pos hp]
  · have hp : (freed.port p).state ≠ .attached := fun h => nomatch hp.symm.trans h
    rw [told, hq, State.offerTo_some, if_neg hp]

/-! ### The start-up sweep -/

/-- The words of a list of extents, extent by extent in ascending order (R105, R106). -/
def sweepWords (l : List Extent) : List Nat :=
  l.flatMap fun e => (List.range (e.count * 64)).map fun i => e.base * 64 + i

/-- The sweep's next word is read off the list of its words. -/
theorem wipeWordAt_eq_getElem? (l : List Extent) (n : Nat) : wipeWordAt l n = (sweepWords l)[n]? := by
  induction l generalizing n with
  | nil => rfl
  | cons e es ih =>
    have length : ((List.range (e.count * 64)).map fun i => e.base * 64 + i).length = e.words := by
      rw [List.length_map, List.length_range]; rfl
    rw [sweepWords, List.flatMap_cons, wipeWordAt]
    split
    · next h =>
      have hr : n < (List.range (e.count * 64)).length := by rwa [List.length_range]
      rw [List.getElem?_append_left (length ▸ h), List.getElem?_map, List.getElem?_eq_getElem hr, List.getElem_range]
      rfl
    · next h =>
      rw [List.getElem?_append_right (length ▸ Nat.not_lt.mp h), length]
      exact ih _

section
variable {s u : State}

/-- With every word written the part becomes READY, and its list and count are emptied (R104, log entry 20). -/
theorem State.endSweep_of_over (hp : s.part = .starting) (hr : s.rstLow = false)
    (h : (sweepWords s.wipeList).length ≤ s.swept) : s.endSweep = { s with part := .ready, wipeList := [], swept := 0 } :=
  if_pos (by simp [hp, hr, wipeWordAt_eq_getElem?, h])

/-- With a word still to write the sweep goes on. -/
theorem State.endSweep_of_going (h : s.swept < (sweepWords s.wipeList).length) : s.endSweep = s :=
  if_neg (by simp [wipeWordAt_eq_getElem?, h])

/-- In a slot of the engine the sweep writes its next word and counts it (R105). -/
theorem exec_sweepWord {n : Nat} (hp : s.part = .starting) (hr : s.rstLow = false)
    (hn : (sweepWords s.wipeList)[s.swept]? = some n) (hu : s.grantSlot .engine = some u) :
    exec .sweepWord s =
      .next { u with store := (u.zeroWord n).store, swept := s.swept + 1 }.endSweep := by
  have hswept : u.swept = s.swept := by obtain ⟨-, rfl⟩ := State.grantSlot_some hu; rfl
  change Host.Outcome.next _ = _
  rw [if_pos (by simp [hp, hr]), wipeWordAt_eq_getElem?, hn]
  dsimp only
  rw [State.inSlot_granted _ hu, State.sweepStep, hswept]
  rfl

end

/-- Settles O38: a word of the list is written, and the sweep ends with the last one. -/
theorem startupSweep : Obligations.StartupSweep := by
  intro s hp hr words
  refine ⟨fun n u hs hn hlt hu => ⟨(u.zeroWord n).store, fun a => ?_, fun h => ?_, fun h => ?_⟩,
    fun h => congrArg Host.Outcome.next (State.endSweep_of_over hp hr h),
    fun h => congrArg Host.Outcome.next (State.endSweep_of_going h)⟩
  · have hstore : u.store = s.store := (State.beside_grantSlot hu).store
    rw [State.readByte_zeroWord hlt a (hstore ▸ hs), hstore]
  all_goals
    rw [exec_sweepWord hp hr hn hu]
    obtain ⟨-, rfl⟩ := State.grantSlot_some hu
  · rw [State.endSweep_of_going h]
  · rw [State.endSweep_of_over]
    exacts [hp, hr, h]

end Sys2Proof.Machine
end

section
/-! SUPPORT. The accesses that waited for RST_n to rise, the reset wipe list, and the obligation on warm reset, power-on
and RST_n high (O45). -/

namespace Sys2Proof.Machine

/-! ### An access of a DETACHED port -/

/-- The interfaces of the ports but `p` are in `t` as in `s`. -/
def State.othersKept (s t : State) (p : Port) : Prop := ∀ q, q ≠ p → t.port q = s.port q

section
variable {s t u : State} {p : Port}

theorem State.othersKept.trans (h : s.othersKept t p) (k : t.othersKept u p) : s.othersKept u p :=
  fun q hq => (k q hq).trans (h q hq)

theorem State.othersKept_updPort (s : State) (p : Port) (f : PortIface → PortIface) : s.othersKept (s.updPort p f) p :=
  fun _ hq => State.port_updPort_of_ne s f hq

/-- A command of a DETACHED port is refused, ATTACH apart (R12, R25, R154). -/
theorem othersKept_launch {word : Word} {decide : State → Decision} (hb : beginsAttached p decide)
    (hd : (s.port p).state = .detached) : s.othersKept (launch p word decide s) p := by
  obtain ⟨k, hk⟩ := hb (s.launched p word)
  cases hs : s.part with
  | starting =>
    rw [launch_of_refuse (hk.trans (State.whenAttached_starting hs))]
    exact s.othersKept_updPort p _
  | ready =>
    rw [launch_of_refuse (hk.trans (State.whenAttached_detached hs ((s.launched_port_state p p word).trans hd)))]
    exact s.othersKept_updPort p _

theorem othersKept_takeAttach (p : Port) (c : CmdFields) (s : State) : s.othersKept (takeAttach p c s) p := by
  have decided : (s.launched p (c.word 0x01#8)).othersKept (decideAttach p c (s.launched p (c.word 0x01#8))).1 p := by
    unfold decideAttach
    split
    · exact fun _ _ => rfl
    · split
      · exact fun _ _ => rfl
      · exact State.othersKept_updPort _ p _
  exact ((s.othersKept_updPort p _).trans decided).trans (State.othersKept_updPort _ p _)

theorem othersKept_takeSarb (p : Port) (v : Word) (s : State) : s.othersKept (takeSarb p v s) p := by
  have done : s.othersKept (s.complete p .wrote) p := s.othersKept_updPort p _
  unfold takeSarb
  dsimp only
  split
  · exact fun q hq => done q hq
  · exact done

theorem State.othersKept_acceptPosted (s : State) (p : Port) (va : Half) (w : StoreWrite) :
    s.othersKept (s.acceptPosted p va w) p := by
  rw [State.acceptPosted_eq]
  split
  · exact s.othersKept_updPort p _
  · exact fun q hq => (State.port_updPort_of_ne _ _ hq).trans (s.port_noteWrite p q w.addr)

theorem State.othersKept_acceptBlocking (s : State) (p : Port) (va : Half) (w : StoreWrite) :
    s.othersKept (s.acceptBlocking p va w) p := by
  unfold State.acceptBlocking
  split
  · rw [State.failWrite_eq]
    exact s.othersKept_updPort p _
  · exact fun q hq => (State.port_updPort_of_ne _ _ hq).trans (s.port_noteWrite p q w.addr)

theorem othersKept_takeViewRead (p : Port) (a : BusAddr) (s : State) : s.othersKept (takeViewRead p a s) p := by
  have failed : ∀ k w, s.othersKept (s.failRead p k a w) p := fun k w => by
    rw [State.failRead_eq]
    exact s.othersKept_updPort p _
  unfold takeViewRead
  split
  · exact failed _ _
  · split
    · exact failed _ _
    · exact s.othersKept_updPort p _

theorem othersKept_takeViewWrite (p : Port) (a : BusAddr) (be : Enables) (v : Word) (s : State) :
    s.othersKept (takeViewWrite p a be v s) p := by
  unfold takeViewWrite
  split
  · exact s.othersKept_updPort p _
  · split
    · rw [State.failWrite_eq]
      exact s.othersKept_updPort p _
    · unfold State.offerPosted
      split
      · exact s.othersKept_acceptPosted p _ _
      · exact s.othersKept_updPort p _
    · exact s.othersKept_acceptBlocking p _ _

/-- An access of a DETACHED port changes no other port's interface: its commands are refused but ATTACH, and its window
and view accesses are its own interface's (R154, R174). -/
theorem othersKept_takeAccess {c : Instr} (hc : (encodeBus c).map Prod.fst = some p) (hd : (s.port p).state = .detached) :
    s.othersKept (takeAccess c s) p := by
  cases c with
  | attach q c => obtain rfl := Option.some.inj hc; exact othersKept_takeAttach q c s
  | detach q c => obtain rfl := Option.some.inj hc; exact othersKept_launch (begins_detach q c) hd
  | acquire q c => obtain rfl := Option.some.inj hc; exact othersKept_launch (begins_acquire q c).attached hd
  | cancel q c => obtain rfl := Option.some.inj hc; exact othersKept_launch (begins_cancel q c).attached hd
  | release q c => obtain rfl := Option.some.inj hc; exact othersKept_launch (begins_release q c).attached hd
  | renew q c => obtain rfl := Option.some.inj hc; exact othersKept_launch (begins_renew q c).attached hd
  | makePrivate q c => obtain rfl := Option.some.inj hc; exact othersKept_launch (begins_makePrivate q c).attached hd
  | relinquish q c => obtain rfl := Option.some.inj hc; exact othersKept_launch (begins_relinquish q c).attached hd
  | digest q c => obtain rfl := Option.some.inj hc; exact othersKept_launch (begins_digest q c).attached hd
  | message q c => obtain rfl := Option.some.inj hc; exact othersKept_launch (begins_message q c) hd
  | define q c => obtain rfl := Option.some.inj hc; exact othersKept_launch (begins_define q c).attached hd
  | modify q c => obtain rfl := Option.some.inj hc; exact othersKept_launch (begins_modify q c).attached hd
  | delete q c => obtain rfl := Option.some.inj hc; exact othersKept_launch (begins_delete q c).attached hd
  | reclaim q c => obtain rfl := Option.some.inj hc; exact othersKept_launch (begins_reclaim q c).attached hd
  | evict q c => obtain rfl := Option.some.inj hc; exact othersKept_launch (begins_evict q c).attached hd
  | sarb q v => obtain rfl := Option.some.inj hc; exact othersKept_takeSarb q v s
  | viewRead q a => obtain rfl := Option.some.inj hc; exact othersKept_takeViewRead q a s
  | viewWrite q a be v => obtain rfl := Option.some.inj hc; exact othersKept_takeViewWrite q a be v s
  | aperturePlacementWrite q n f v =>
    obtain rfl : q = p := by cases f <;> exact Option.some.inj hc
    exact s.othersKept_updPort q _
  | badCommand q _ | npop q _ | fclr q _ | nmask q _ | lwarn q _ | fill q _ | attrWrite q _ _ | pstatRead q
  | windowWrite q _ _ _ => obtain rfl := Option.some.inj hc; exact s.othersKept_updPort q _
  | _ => exact fun _ _ => rfl

/-- A command that a host gives through port `p`'s bus is that access, offered on port `p`. -/
theorem exec_host_of_port {c : Instr} (s : State) (hc : (encodeBus c).map Prod.fst = some p) :
    exec c s = hostAccess p c s (takeAccess c) := by
  cases c with
  | postedWriteAccept _ | postedWriteLanding _ | blockingWriteLanding _ | blockingReadSlot _ | wipeWord | digestWord
  | sweepWord | startupSweepEnd | fenceRequest _ _ | fenceCompletion _ _ | drainEnd _ | leaseTick | leaseExpiry _
  | jobStart | wipeCompletion _ | digestCompletion _ | portReset _ | portResetRelease _ | warmReset | resetRelease _
  | powerOn => exact nomatch hc
  | aperturePlacementWrite q _ f _ =>
    obtain rfl : q = p := by cases f <;> exact Option.some.inj hc
    rfl
  | _ => obtain rfl := Option.some.inj hc; rfl

end

/-! ### The accesses that waited -/

/-- Port `p` as the bus law leaves it while its bus is not served: DETACHED, nothing held, and what waits is a well-formed
access of its own (R136, R166). -/
structure PortIface.awaitsService (i : PortIface) (p : Port) : Prop where
  detached : i.state = .detached
  free : i.busHeld = false
  own : ∀ c, i.waiting = some c → c.wf = true ∧ (encodeBus c).map Prod.fst = some p

theorem State.busLaw.awaitsService {s : State} (hb : s.busLaw) {p : Port} (hs : s.served p = false) :
    (s.port p).awaitsService p := by
  obtain ⟨hidle, -, hwait⟩ := hb p
  obtain ⟨hd, -, hblocking, hheld, -⟩ := hidle hs
  exact ⟨hd, by simp [PortIface.busHeld, hblocking, hheld], fun c hc => (hwait c hc).2⟩

section
variable {s : State} {p : Port}

theorem State.resume_of_none (h : (s.port p).waiting = none) : s.resume p = s := by
  unfold State.resume
  split
  · rw [h]
  · rfl

theorem serveWaiting_of_none (h : (s.port p).waiting = none) : serveWaiting (.next s) p = .next s := by
  simp only [serveWaiting, h, ite_self]

theorem State.resume_of_not_served (h : s.served p = false) : s.resume p = s := by simp [State.resume, h]

theorem serveWaiting_of_not_served (h : s.served p = false) : serveWaiting (.next s) p = .next s := by
  simp [serveWaiting, h]

/-- Port `p`'s turn, where its bus is served and an access of its waits: the model's and the one the claim states. -/
theorem State.resume_of_waiting {c : Instr} (hs : s.served p = true) (hw : (s.port p).waiting = some c) :
    s.resume p = takeAccess c (s.updPort p fun i => { i with waiting := none }) ∧
      serveWaiting (.next s) p = exec c (s.updPort p fun i => { i with waiting := none }) := by
  simp only [State.resume, serveWaiting, hs, hw, if_true, and_self]

/-- Port `p`'s turn is its waiting access as one offered then, and changes no other port's interface (R166, R171). -/
theorem serveWaiting_eq_resume (h : (s.port p).awaitsService p) :
    serveWaiting (.next s) p = .next (s.resume p) ∧ s.othersKept (s.resume p) p := by
  cases hs : s.served p with
  | false =>
    rw [serveWaiting_of_not_served hs, State.resume_of_not_served hs]
    exact ⟨rfl, fun _ _ => rfl⟩
  | true =>
    cases hw : (s.port p).waiting with
    | none =>
      rw [serveWaiting_of_none hw, State.resume_of_none hw]
      exact ⟨rfl, fun _ _ => rfl⟩
    | some c =>
      obtain ⟨hresume, hserve⟩ := State.resume_of_waiting hs hw
      obtain ⟨hwf, hport⟩ := h.own c hw
      rw [hresume, hserve]
      have cleared := s.othersKept_updPort p fun i => { i with waiting := none }
      have hself := s.port_updPort_self p fun i => { i with waiting := none }
      have hup : (s.updPort p fun i => { i with waiting := none }).served p = true := by
        rw [State.served, hself]; exact hs
      generalize s.updPort p (fun i => { i with waiting := none }) = u at cleared hself hup
      refine ⟨?_, cleared.trans (othersKept_takeAccess hport (by rw [hself]; exact h.detached))⟩
      rw [exec_host_of_port u hport]
      exact hostAccess_of_takes hwf ⟨hup, by rw [hself]; exact h.free⟩

/-- The waiting accesses taken port by port (log entry 16). -/
theorem foldl_serveWaiting {l : List Port} (hl : l.Nodup) (h : ∀ q ∈ l, (s.port q).awaitsService q) :
    l.foldl serveWaiting (.next s) = .next (l.foldl State.resume s) := by
  induction l generalizing s with
  | nil => rfl
  | cons p l ih =>
    obtain ⟨hp, hl⟩ := List.nodup_cons.mp hl
    obtain ⟨h0, h⟩ := List.forall_mem_cons.mp h
    obtain ⟨hserve, hothers⟩ := serveWaiting_eq_resume h0
    rw [List.foldl_cons, List.foldl_cons, hserve]
    refine ih hl fun q hq => ?_
    rw [hothers q fun e => hp (e ▸ hq)]
    exact h q hq

end

/-! ### The reset wipe list -/

/-- The order of the reset wipe list (R106). -/
abbrev Extent.before (a b : Extent) : Prop := a.base ≤ b.base

theorem insertExtent_eq (e : Extent) (l : List Extent) : insertExtent e l = l.orderedInsert Extent.before e := by
  induction l with
  | nil => rfl
  | cons x l ih => rw [insertExtent, ih, List.orderedInsert_cons]

theorem State.resetWipeList_eq (s : State) : s.resetWipeList =
    (((allRegions.filterMap s.slot).filter Region.mustWipe).map Region.extent).insertionSort Extent.before := by
  rw [State.resetWipeList, List.insertionSort, List.foldr_map]
  exact congrArg (fun f => List.foldr f [] _) (funext fun g => funext (insertExtent_eq g.extent))

theorem State.resetWipeList_pairwise (s : State) : s.resetWipeList.Pairwise Extent.before := by
  have total : Std.Total Extent.before := ⟨fun a b => Nat.le_total a.base b.base⟩
  have trans : IsTrans Extent Extent.before := ⟨fun _ _ _ => Nat.le_trans⟩
  rw [s.resetWipeList_eq]
  exact List.pairwise_insertionSort Extent.before _

theorem State.resetWipeList_perm (s : State) : s.resetWipeList.Perm
    ((allRegions.filterMap s.slot).filterMap fun g => if g.mustWipe then some g.extent else none) := by
  rw [s.resetWipeList_eq, ← List.filterMap_eq_map, List.filterMap_filter]
  exact List.perm_insertionSort Extent.before _

/-! ### The part resets -/

section
variable {s : State}

theorem State.cmdOnBus_nil (s : State) (p : Port) : s.cmdOnBus p [] = none := by
  unfold State.cmdOnBus
  split <;> rfl

/-- Behind a warm reset each port's first CMD write is on its bus, if the bus is served and free (R126, R179). -/
theorem State.cmdOnBus_cmdsBehind (hr : s.rstLow = false) (p : Port) : s.cmdOnBus p s.cmdsBehind =
    if (s.port p).resetLow = true ∨ (s.port p).busHeld = true then none
    else (s.pending.takeWhile fun c => [Port.p0, .p1, .p2, .p3].any c.writesCmd).find? fun c => c.writesCmd p := by
  rw [State.cmdOnBus, State.served, hr]
  cases (s.port p).resetLow <;> cases (s.port p).busHeld <;> rfl

/-- The interfaces that a part reset leaves are those of the reset values (R165, R175). -/
theorem State.partReset_eq (s : State) {behind : List Instr} {o : Port → Option Instr} (list : List Extent)
    (h : ∀ p, s.cmdOnBus p behind = o p) : s.partReset behind list = { State.reset with
      pending := s.pending, wipeList := list, store := s.store
      ports := PerPort.ofFun fun p => (s.port p).resetValues (o p) } := by
  simp only [State.partReset, PortIface.restored_eq, h]

theorem exec_warmReset_of_ready (hr : s.rstLow = false) (hp : s.part = .ready) :
    exec .warmReset s = .next (s.partReset s.cmdsBehind s.resetWipeList) := by
  change Host.Outcome.next _ = _
  simp only [hr, hp, Bool.false_eq_true, if_false]

theorem exec_warmReset_of_starting (hr : s.rstLow = false) (hp : s.part = .starting) :
    exec .warmReset s = .next (s.partReset s.cmdsBehind s.wipeList) := by
  change Host.Outcome.next _ = _
  simp only [hr, hp, Bool.false_eq_true, if_false]

theorem exec_resetRelease (hr : s.rstLow = true) (b : BitVec 2) : exec (.resetRelease b) s = .next
    (allPorts.foldl State.resume { s with rstLow := false, supervisor := some (.ofBits b) }.endSweep) :=
  congrArg Host.Outcome.next (if_pos hr)

theorem sweepWords_eq_nil_iff (l : List Extent) : sweepWords l = [] ↔ ∀ e ∈ l, e.count = 0 := by
  simp [sweepWords, List.flatMap_eq_nil_iff]

end

/-- Settles O45: a part reset is `State.partReset`, and at the rise each port's waiting access is as one offered then. -/
theorem partResets : Obligations.PartResets := by
  intro s cleared overtaken
  have reset : s.rstLow = false → ∀ l, s.partReset s.cmdsBehind l = cleared overtaken l s.store := fun hr l =>
    s.partReset_eq l (State.cmdOnBus_cmdsBehind hr)
  refine ⟨fun hr hp => ⟨s.resetWipeList, ?_, s.resetWipeList_pairwise, ?_⟩, fun hr hp => ?_,
    fun hr => congrArg Host.Outcome.next (if_pos hr), ?_, fun b hr => congrArg Host.Outcome.next (if_neg (by simp [hr])),
    fun b hr => ?_⟩
  · rw [exec_warmReset_of_ready hr hp, reset hr]
  · refine s.resetWipeList_perm.trans (List.Perm.of_eq (congrArg (fun f => List.filterMap f _) (funext fun g => ?_)))
    unfold Region.mustWipe
    rcases g.state with _ | _ | _ | ⟨_ | _ | _ | _, _⟩ | _ | _ <;> rfl
  · rw [exec_warmReset_of_starting hr hp, reset hr]
  · exact congrArg (fun t : State => Host.Outcome.next { t with store := [] }) (s.partReset_eq _ s.cmdOnBus_nil)
  · intro high released
    have rises : ∀ up, high.endSweep = up → up.ports = s.ports → released up := fun up hup hports => by
      have hport : ∀ p, up.port p = s.port p := fun p => congrArg (fun v => v.get p) hports
      have hexec : exec (.resetRelease b) s = .next (allPorts.foldl State.resume up) := hup ▸ exec_resetRelease hr b
      refine ⟨fun hw => ?_, fun hb => ⟨_, hexec, ?_⟩⟩
      · rw [hexec, State.foldl_of_unchanged fun p _ => State.resume_of_none (hport p ▸ hw p)]
      · exact foldl_serveWaiting allPorts_nodup fun p _ => hport p ▸ hb.awaitsService (by simp [State.served, hr])
    refine ⟨fun hp he => rises _ (State.endSweep_of_over hp rfl ?_) rfl, fun _ h0 he => rises _ (State.endSweep_of_going ?_) rfl⟩
    · rw [show sweepWords high.wipeList = [] from (sweepWords_eq_nil_iff _).mpr he]
      exact Nat.zero_le _
    · rw [show high.swept = 0 from h0]
      obtain ⟨e, he, hne⟩ := he
      exact List.length_pos_iff.mpr fun h => hne ((sweepWords_eq_nil_iff _).mp h e he)

end Sys2Proof.Machine
end

section
/-! SUPPORT. What the laws of the write paths and of the buses ask of one port's interface, and what leaves it so: the
operations of the lock engine, changes beside the bus, and a port reset (O55). -/

namespace Sys2Proof.Machine

/-! ### One port's bus and write path -/

/-- What the laws of the write paths and of the buses ask of port `p`'s interface, its bus served or not and the part in
this state (R127, R129, R136, R166, R171). -/
structure PortIface.Orderly (i : PortIface) (p : Port) (served : Bool) (part : PartState) : Prop where
  path : i.pathLaw
  unserved : served = false → i.state = .detached ∧ i.pathEmpty
  starting : part = .starting → i.pathEmpty
  waiting : ∀ c, i.waiting = some c → served = false ∧ c.wf = true ∧ (encodeBus c).map Prod.fst = some p

/-- What an interface is while its bus is not served: DETACHED with an empty write path, and what waits is a well-formed
access of its own (R136, R166). -/
structure PortIface.AtRest (i : PortIface) (p : Port) : Prop where
  detached : i.state = .detached
  pathEmpty : i.pathEmpty
  own : ∀ c, i.waiting = some c → c.wf = true ∧ (encodeBus c).map Prod.fst = some p

/-- What the two laws read of an interface. -/
def PortIface.busSide (i : PortIface) : PortState × Bool × Option Instr × Option HeldWrite × List StoreWrite × Option Blocking ×
    List FenceMark := (i.state, i.resetLow, i.waiting, i.held, i.path)

section
variable {i j : PortIface} {p : Port} {served : Bool} {part : PartState}

theorem PortIface.pathEmpty.pathLaw (h : i.pathEmpty) : i.pathLaw := by
  obtain ⟨hq, hb, hh, -⟩ := h
  simp [PortIface.pathLaw, hq, hh]

theorem PortIface.resetLow_of_busSide (h : j.busSide = i.busSide) : j.resetLow = i.resetLow := congrArg (fun x => x.2.1) h

theorem PortIface.Orderly.congr (o : i.Orderly p served part) (h : j.busSide = i.busSide) : j.Orderly p served part := by
  simp only [PortIface.busSide, PortIface.path, Prod.mk.injEq] at h
  obtain ⟨hs, -, hw, hh, hq, hb, hf⟩ := h
  have empty : i.pathEmpty → j.pathEmpty := by
    simp only [PortIface.pathEmpty, hh, hq, hb, hf]
    exact id
  refine ⟨?_, fun h => (o.unserved h).imp hs.trans empty, fun h => empty (o.starting h), fun c hc => o.waiting c (hw ▸ hc)⟩
  simp only [PortIface.pathLaw, hh, hq, hb]
  exact o.path

/-- On a served bus of a READY part only the bounds of the path are asked, if nothing new waits. -/
theorem PortIface.Orderly.of_open (o : i.Orderly p served part) (hs : served = true) (hp : part = .ready)
    (hw : j.waiting = i.waiting) (hj : j.pathLaw) : j.Orderly p served part :=
  ⟨hj, fun h => absurd (hs.symm.trans h) nofun, fun h => absurd (hp.symm.trans h) nofun, fun c hc => o.waiting c (hw ▸ hc)⟩

/-- A write path that is not empty belongs to a served bus of a READY part (R136, R171). -/
theorem PortIface.Orderly.open_of_path (o : i.Orderly p served part) (h : ¬ i.pathEmpty) : served = true ∧ part = .ready := by
  constructor
  · cases hs : served
    exacts [absurd (o.unserved hs).2 h, rfl]
  · cases hp : part
    exacts [absurd (o.starting hp) h, rfl]

theorem PortIface.Orderly.atRest (o : i.Orderly p served part) (h : served = false) : i.AtRest p :=
  ⟨(o.unserved h).1, (o.unserved h).2, fun c hc => (o.waiting c hc).2⟩

/-- An interface at rest is orderly on whatever bus, while nothing waits for one that is served. -/
theorem PortIface.AtRest.orderly (h : i.AtRest p) (hw : served = false ∨ i.waiting = none) : i.Orderly p served part :=
  ⟨h.pathEmpty.pathLaw, fun _ => ⟨h.detached, h.pathEmpty⟩, fun _ => h.pathEmpty, fun c hc =>
    ⟨hw.resolve_right fun hn => by simp [hn] at hc, h.own c hc⟩⟩

theorem PortIface.AtRest.awaitsService (h : i.AtRest p) : i.awaitsService p := by
  obtain ⟨-, hb, hh, -⟩ := h.pathEmpty
  exact ⟨h.detached, by simp [PortIface.busHeld, hb, hh], h.own⟩

theorem PortIface.AtRest.cleared (h : i.AtRest p) : ({ i with waiting := none } : PortIface).AtRest p :=
  ⟨h.detached, h.pathEmpty, fun _ hc => by cases hc⟩

theorem PortIface.AtRest.setLine (h : i.AtRest p) (low : Bool) : ({ i with resetLow := low } : PortIface).AtRest p :=
  ⟨h.detached, h.pathEmpty, h.own⟩

/-- A reset leaves the interface at rest (R165, R166). -/
theorem PortIface.atRest_restored (o : Option Instr)
    (hw : ∀ c, i.waiting = some c → c.wf = true ∧ (encodeBus c).map Prod.fst = some p) : (i.restored o).AtRest p :=
  ⟨rfl, ⟨rfl, rfl, rfl, rfl⟩, hw⟩

end

/-! ### The ports of a state -/

/-- Port `p`'s interface keeps the laws of the write paths and of the buses. -/
abbrev State.orderly (s : State) (p : Port) : Prop := (s.port p).Orderly p (s.served p) s.part

/-- A port that is orderly in `s` is orderly in `t`. -/
def State.KeepsOrder (s t : State) : Prop := ∀ p, s.orderly p → t.orderly p

section
variable {s t u : State} {p q : Port}

theorem State.orderly_iff (s : State) : (∀ p, s.orderly p) ↔ s.pathsLaw ∧ s.busLaw :=
  ⟨fun h => ⟨fun p => (h p).path, fun p => ⟨(h p).unserved, (h p).starting, (h p).waiting⟩⟩,
    fun ⟨hp, hb⟩ p => have ⟨h1, h2, h3⟩ := hb p; ⟨hp p, h1, h2, h3⟩⟩

theorem State.KeepsOrder.refl (s : State) : s.KeepsOrder s := fun _ => id

theorem State.KeepsOrder.trans (h : s.KeepsOrder t) (k : t.KeepsOrder u) : s.KeepsOrder u := fun p o => k p (h p o)

theorem State.served_congr (hr : t.rstLow = s.rstLow) (hl : (t.port p).resetLow = (s.port p).resetLow) :
    t.served p = s.served p := by simp only [State.served, hr, hl]

/-- A change beside the lines and what the laws read of the interfaces. -/
theorem State.keepsOrder_of_same (hr : t.rstLow = s.rstLow) (hp : t.part = s.part)
    (h : ∀ q, (t.port q).busSide = (s.port q).busSide) : s.KeepsOrder t := fun q o => by
  rw [State.orderly, State.served_congr hr (PortIface.resetLow_of_busSide (h q)), hp]
  exact o.congr (h q)

theorem State.keepsOrder_of_ports (hr : t.rstLow = s.rstLow) (hp : t.part = s.part) (h : ∀ q, t.port q = s.port q) :
    s.KeepsOrder t := State.keepsOrder_of_same hr hp fun q => congrArg _ (h q)

/-- A change of one port's interface. -/
theorem State.keepsOrder_of_port (hr : t.rstLow = s.rstLow) (hp : t.part = s.part) (ho : s.othersKept t p)
    (hl : (t.port p).resetLow = (s.port p).resetLow) (h : s.orderly p → (t.port p).Orderly p (s.served p) s.part) :
    s.KeepsOrder t := fun q o => by
  by_cases hq : q = p
  · subst hq
    rw [State.orderly, State.served_congr hr hl, hp]
    exact h o
  · rw [State.orderly, State.served_congr hr (congrArg _ (ho q hq)), hp, ho q hq]
    exact o

theorem State.keepsOrder_updPort (s : State) (p : Port) {f : PortIface → PortIface}
    (hl : (f (s.port p)).resetLow = (s.port p).resetLow)
    (h : s.orderly p → (f (s.port p)).Orderly p (s.served p) s.part) : s.KeepsOrder (s.updPort p f) :=
  State.keepsOrder_of_port rfl rfl (s.othersKept_updPort p f) (by rw [State.port_updPort_self]; exact hl)
    (by rw [State.port_updPort_self]; exact h)

/-- A change of one port's interface beside its bus. -/
theorem State.keepsOrder_updPort_of_same (s : State) (p : Port) {f : PortIface → PortIface}
    (h : (f (s.port p)).busSide = (s.port p).busSide) : s.KeepsOrder (s.updPort p f) :=
  s.keepsOrder_updPort p (PortIface.resetLow_of_busSide h) fun o => o.congr h

theorem State.keepsOrder_complete (s : State) (p : Port) (b : BusResult) : s.KeepsOrder (s.complete p b) :=
  s.keepsOrder_updPort_of_same p rfl

/-- The lock engine touches no bus and no write path. -/
theorem State.LockEvent.keepsOrder (e : s.LockEvent t) : s.KeepsOrder t :=
  State.keepsOrder_of_same e.rstLow e.part fun q => by rw [e.port q]; rfl

/-- A port reset, its line apart: the port is at rest, and the others are as they were (R165). -/
theorem State.orderly_resetPort (o : Option Instr) (hq : q ≠ p → s.orderly q)
    (hw : q = p → ∀ c, (s.port p).waiting = some c →
      s.served p = false ∧ c.wf = true ∧ (encodeBus c).map Prod.fst = some p) : (s.resetPort p o).orderly q := by
  refine (State.lockEvent_cutAll ((s.reportMarks p).updPort p fun i => i.restored o) p).keepsOrder q ?_
  have hport := State.port_updPort (s.reportMarks p) p q fun i => i.restored o
  change _ = if q = p then (s.port p).restored o else s.port q at hport
  have hserved : ((s.reportMarks p).updPort p fun i => i.restored o).served q = s.served q := by
    refine State.served_congr rfl ?_
    rw [hport]
    split
    · next h => rw [h]; rfl
    · rfl
  rw [State.orderly, hserved, hport]
  split
  · next h =>
    subst h
    refine (PortIface.atRest_restored o fun c hc => (hw rfl c hc).2).orderly ?_
    cases hc : (s.port q).waiting with
    | none => exact .inr hc
    | some c => exact .inl (hw rfl c hc).1
  · next h => exact hq h

theorem State.keepsOrder_resetPort (s : State) (p : Port) (o : Option Instr) : s.KeepsOrder (s.resetPort p o) := fun _ h =>
  State.orderly_resetPort o (fun _ => h) fun hq => hq ▸ h.waiting

end

end Sys2Proof.Machine
end

section
/-! SUPPORT. The laws of the write paths and of the buses, kept by every access that a port takes: the decisions of the lock
engine, the window writes, and the view accesses that enter the write path (O55). -/

namespace Sys2Proof.Machine

variable {s t : State} {p : Port}

/-! ### Decisions -/

theorem State.KeepsOrder.ite {c : Prop} [Decidable c] {d e : Decision} (hd : s.KeepsOrder d.1) (he : s.KeepsOrder e.1) :
    s.KeepsOrder (if c then d else e).1 := by
  split
  · exact hd
  · exact he

/-- A command refused on a condition (R12, R25). -/
theorem State.KeepsOrder.unless {c : Prop} [Decidable c] {x : Result} {d : Decision} (hd : s.KeepsOrder d.1) :
    s.KeepsOrder (if c then refuse s x else d).1 := .ite (State.KeepsOrder.refl s) hd

/-- A command refused but on a condition (R12, R25). -/
theorem State.KeepsOrder.provided {c : Prop} [Decidable c] {x : Result} {d : Decision} (hd : s.KeepsOrder d.1) :
    s.KeepsOrder (if c then d else refuse s x).1 := .ite hd (State.KeepsOrder.refl s)

theorem State.keepsOrder_whenAttached {k : Decision} (h : s.KeepsOrder k.1) : s.KeepsOrder (s.whenAttached p k).1 :=
  .unless (.unless h)

theorem State.keepsOrder_onRegion {r : RegionIx} {k : Region → Decision}
    (h : ∀ g, s.slot r = some g → s.KeepsOrder (k g).1) : s.KeepsOrder (s.onRegion p r k).1 := by
  refine State.keepsOrder_whenAttached ?_
  split
  · exact State.KeepsOrder.refl s
  · next g hg => exact h g hg

theorem State.keepsOrder_asSupervisor {k : Decision} (h : s.KeepsOrder k.1) : s.KeepsOrder (s.asSupervisor p k).1 :=
  State.keepsOrder_whenAttached (.provided h)

theorem State.RegionEvent.keepsOrder {r : RegionIx} (e : s.RegionEvent t r) : s.KeepsOrder t := e.toLockEvent.keepsOrder

theorem State.keepsOrder_setSlot (s : State) (r : RegionIx) (x : Option Region) : s.KeepsOrder (s.setSlot r x) :=
  (s.regionEvent_setSlot r x).keepsOrder

theorem State.keepsOrder_grantPass (s : State) (r : RegionIx) : s.KeepsOrder (s.grantPass r) :=
  (s.regionEvent_grantPass r).keepsOrder

theorem State.keepsOrder_sendFence (s : State) (r : RegionIx) (q : Port) : s.KeepsOrder (s.sendFence r q) :=
  (s.regionEvent_sendFence r r q).keepsOrder

/-- A command word is its decision between two changes of its port's window (R175). -/
theorem State.keepsOrder_launch {word : Word} {decide : State → Decision}
    (h : (s.launched p word).KeepsOrder (decide (s.launched p word)).1) : s.KeepsOrder (launch p word decide s) := by
  rw [launch_eq]
  exact ((s.keepsOrder_updPort_of_same p (f := fun i => { i with cmd := word }) rfl).trans h).trans
    (State.keepsOrder_updPort_of_same _ p (f := fun i => { i with cres := _, cresv := _, bus := .wrote }) rfl)

/-- A port becomes ATTACHED on a served bus only (R166, R171). -/
theorem keepsOrder_decideAttach (hs : s.served p = true) (c : CmdFields) : s.KeepsOrder (decideAttach p c s).1 :=
  .unless (.unless (s.keepsOrder_updPort p rfl fun o =>
    ⟨o.path, fun h => absurd (hs.symm.trans h) nofun, o.starting, o.waiting⟩))

theorem keepsOrder_decideDetach (c : CmdFields) : s.KeepsOrder (decideDetach p c s).1 :=
  State.keepsOrder_whenAttached ((s.lockEvent_leaveAll p).keepsOrder.trans
    (State.keepsOrder_updPort _ p (f := fun i => { i with state := .detached }) rfl fun o =>
      ⟨o.path, fun h => ⟨rfl, (o.unserved h).2⟩, o.starting, o.waiting⟩))

theorem keepsOrder_decideAcquire (c : CmdFields) : s.KeepsOrder (decideAcquire p c s).1 :=
  State.keepsOrder_onRegion fun _ _ => .unless (.unless (.unless (.unless
    (.ite (s.keepsOrder_setSlot _ _) (.provided (s.keepsOrder_setSlot _ _))))))

theorem keepsOrder_decideCancel (c : CmdFields) : s.KeepsOrder (decideCancel p c s).1 :=
  State.keepsOrder_onRegion fun _ _ => .provided ((s.keepsOrder_setSlot _ _).trans (State.keepsOrder_grantPass _ _))

theorem keepsOrder_decideRelease (c : CmdFields) : s.KeepsOrder (decideRelease p c s).1 :=
  State.keepsOrder_onRegion fun _ _ =>
    .provided ((s.regionEvent_endHold _ p false).keepsOrder.trans (State.keepsOrder_grantPass _ _))

theorem keepsOrder_decideRenew (c : CmdFields) : s.KeepsOrder (decideRenew p c s).1 := by
  refine State.keepsOrder_onRegion fun g _ => ?_
  split
  · exact State.KeepsOrder.refl s
  · exact .unless (s.keepsOrder_setSlot _ _)

theorem keepsOrder_decideMakePrivate (c : CmdFields) : s.KeepsOrder (decideMakePrivate p c s).1 :=
  State.keepsOrder_onRegion fun _ _ => .unless (.unless (.unless (s.keepsOrder_setSlot _ _)))

theorem keepsOrder_decideRelinquish (c : CmdFields) : s.KeepsOrder (decideRelinquish p c s).1 :=
  State.keepsOrder_onRegion fun _ _ => .provided ((s.keepsOrder_setSlot _ _).trans (State.keepsOrder_sendFence _ _ p))

theorem keepsOrder_decideDigest (c : CmdFields) : s.KeepsOrder (decideDigest p c s).1 :=
  State.keepsOrder_onRegion fun _ _ => .unless (.unless (s.regionEvent_queueJob _ _ _).keepsOrder)

theorem keepsOrder_decideMessage (c : CmdFields) : s.KeepsOrder (decideMessage p c s).1 :=
  State.keepsOrder_whenAttached (.unless (.unless (s.keepsOrder_updPort_of_same c.target
    (f := fun i => { i with notes := i.notes ++ [.message p (s.port p).carg0] }) rfl)))

theorem keepsOrder_decideDefine (c : CmdFields) : s.KeepsOrder (decideDefine p c s).1 := by
  refine State.keepsOrder_asSupervisor (.unless (.unless (.unless ?_)))
  exact (s.keepsOrder_setSlot c.region _).trans
    (State.regionEvent_foldl _ (fun t q => t.regionEvent_sendFence c.region c.region q) allPorts _).keepsOrder

theorem keepsOrder_decideModify (c : CmdFields) : s.KeepsOrder (decideModify p c s).1 := by
  refine State.keepsOrder_asSupervisor ?_
  split
  · exact State.KeepsOrder.refl s
  · exact .provided (s.keepsOrder_setSlot _ _)

theorem keepsOrder_decideDelete (c : CmdFields) : s.KeepsOrder (decideDelete p c s).1 := by
  refine State.keepsOrder_asSupervisor ?_
  split
  · exact State.KeepsOrder.refl s
  · exact .provided (s.keepsOrder_setSlot _ _)

theorem keepsOrder_decideReclaim (c : CmdFields) : s.KeepsOrder (decideReclaim p c s).1 := by
  refine State.keepsOrder_asSupervisor ?_
  split
  · exact State.KeepsOrder.refl s
  · next g _ =>
    have reclaimed : ∀ a, s.KeepsOrder ((s.reclaimRecords c.region g).setSlot c.region (some (g.reclaimed p a))) := fun a =>
      (State.Changes.toRegionEvent (State.continues_reclaimRecords (A := fun _ => False) s c.region g)).keepsOrder.trans
        (State.keepsOrder_setSlot _ _ _)
    have idle : s.KeepsOrder (s.reclaimIdle c.region g p) :=
      (reclaimed _).trans (State.regionEvent_decideDrain _ _).keepsOrder
    split
    · exact idle
    · exact idle
    · exact (reclaimed _).trans (State.Changes.toRegionEvent (State.Continues.foldl
        (fun t q => State.continues_fenceIf (A := fun _ => False) t c.region c.region g.holderSet q) allPorts _)).keepsOrder
    · next q _ =>
      exact ((s.regionEvent_offer c.region q _).keepsOrder.trans (State.keepsOrder_setSlot _ _ _)).trans
        (State.keepsOrder_sendFence _ _ q)
    · next d _ =>
      split
      · exact reclaimed d.awaited
      · exact reclaimed d.awaited
      · exact State.KeepsOrder.refl s
      · exact State.KeepsOrder.refl s
    · exact State.KeepsOrder.refl s

theorem keepsOrder_decideEvict (c : CmdFields) : s.KeepsOrder (decideEvict p c s).1 := by
  have reset := s.keepsOrder_resetPort c.target none
  unfold decideEvict
  generalize s.resetPort c.target none = u at reset ⊢
  exact State.keepsOrder_asSupervisor (.unless reset)

/-! ### The register window -/

theorem PortIface.busSide_pop (i : PortIface) : i.pop.busSide = i.busSide := by unfold PortIface.pop; split <;> rfl

theorem PortIface.busSide_placeAperture (i : PortIface) (n : ApertureIx) (f : Placement) (v : Word) :
    (i.placeAperture n f v).busSide = i.busSide := by unfold PortIface.placeAperture; split <;> rfl

theorem PortIface.busSide_writeAttr (i : PortIface) (n : ApertureIx) (v : Word) : (i.writeAttr n v).busSide = i.busSide := by
  unfold PortIface.writeAttr
  dsimp only
  split
  · rfl
  · split <;> rfl
  · rfl
  · split <;> rfl

theorem PortIface.busSide_writeWindow (i : PortIface) (off : BitVec 8) (be : Enables) (v : Word) :
    (i.writeWindow off be v).busSide = i.busSide := by
  unfold PortIface.writeWindow
  repeat' split
  all_goals rfl

theorem State.keepsOrder_windowEffect (s : State) (p : Port) {f : PortIface → PortIface} (h : ∀ i, (f i).busSide = i.busSide) :
    s.KeepsOrder (windowEffect p f s) := s.keepsOrder_updPort_of_same p (h _)

theorem keepsOrder_takeSarb (p : Port) (v : Word) (s : State) : s.KeepsOrder (takeSarb p v s) := by
  have hc := s.keepsOrder_complete p .wrote
  unfold takeSarb
  generalize s.complete p .wrote = u at hc ⊢
  dsimp only
  split
  · exact hc.trans (State.keepsOrder_of_ports rfl rfl fun _ => rfl)
  · exact hc

/-! ### View accesses -/

theorem PortIface.not_busHeld_iff {i : PortIface} : i.busHeld = false ↔ i.blocking = none ∧ i.held = none := by
  simp [PortIface.busHeld]

/-- The decoder passes an access only while the part is READY (R117). -/
theorem State.ready_of_passes {dir : Direction} {a : BusAddr} {w : StoreAddr} {posted : Bool}
    (h : s.decodeView p dir a = .passes w posted) : s.part = .ready := by
  cases hp : s.part with
  | starting => simp [State.decodeView, hp] at h
  | ready => rfl

theorem State.keepsOrder_failRead (s : State) (p : Port) (k : FaultKind) (a : BusAddr) (w : Option (BitVec 18)) :
    s.KeepsOrder (s.failRead p k a w) := by
  rw [State.failRead_eq]; exact s.keepsOrder_updPort_of_same p rfl

theorem State.keepsOrder_failWrite (s : State) (p : Port) (k : FaultKind) (a : Half) (w : Option (BitVec 18)) :
    s.KeepsOrder (s.failWrite p k a w) := by
  rw [State.failWrite_eq]; exact s.keepsOrder_updPort_of_same p rfl

theorem State.keepsOrder_noteWrite (s : State) (p : Port) (w : StoreAddr) : s.KeepsOrder (s.noteWrite p w) := by
  rcases s.noteWrite_cases p w with h | ⟨r, h⟩ <;> rw [h]
  · exact State.KeepsOrder.refl s
  · exact s.keepsOrder_setSlot r _

theorem State.noteWrite_frame (s : State) (p : Port) (w : StoreAddr) (q : Port) :
    (s.noteWrite p w).served q = s.served q ∧ (s.noteWrite p w).part = s.part := by
  have h := (s.effect_noteWrite p w).frame
  exact ⟨State.served_congr h.rstLow (by rw [State.port_noteWrite]), h.part⟩

/-- A write of some lane joins a queue with a place (R108, R127). -/
theorem PortIface.pathLaw.joins {i : PortIface} {w : StoreWrite} (h : i.pathLaw) (hh : i.held = none)
    (hq : i.posted.length < Config.postedCapacity) (hw : w.be ≠ 0#4) :
    ({ i with posted := i.posted ++ [w] } : PortIface).pathLaw := by
  obtain ⟨-, hbe, -, -⟩ := h
  refine ⟨by simpa using hq, List.forall_mem_append.mpr ⟨hbe, by simpa using hw⟩, by simp [hh], by simp [hh]⟩

/-- With no write held a blocking access asks nothing (R129, R130). -/
theorem PortIface.pathLaw.blocks {i : PortIface} {b : Blocking} (h : i.pathLaw) (hh : i.held = none) :
    ({ i with blocking := some b } : PortIface).pathLaw := by
  obtain ⟨hlen, hbe, hheld, -⟩ := h
  exact ⟨hlen, hbe, hheld, by simp [hh]⟩

/-- A write of some lane is held behind a full queue, with no blocking access (R108, R129). -/
theorem PortIface.pathLaw.holds {i : PortIface} {va : Half} {w : StoreWrite} (h : i.pathLaw) (hb : i.blocking = none)
    (hq : ¬ i.posted.length < Config.postedCapacity) (hw : w.be ≠ 0#4) :
    ({ i with held := some ⟨va, w⟩ } : PortIface).pathLaw := by
  obtain ⟨hlen, hbe, -, -⟩ := h
  exact ⟨hlen, hbe, fun _ hx => Option.some.inj hx ▸ hw, fun _ => ⟨Nat.le_antisymm hlen (Nat.not_lt.mp hq), hb⟩⟩

/-- A write accepted on a served bus of a READY part joins a queue with a place (R127, R128). -/
theorem State.keepsOrder_acceptPosted (hs : s.served p = true) (hp : s.part = .ready) (hh : (s.port p).held = none)
    (hq : (s.port p).posted.length < Config.postedCapacity) (va : Half) {w : StoreWrite} (hw : w.be ≠ 0#4) :
    s.KeepsOrder (s.acceptPosted p va w) := by
  unfold State.acceptPosted
  split
  · exact s.keepsOrder_failWrite p _ va _
  · refine ((s.keepsOrder_noteWrite p w.addr).trans
      (State.keepsOrder_updPort _ p (f := fun i => { i with posted := i.posted ++ [w] }) rfl fun o => ?_)).trans
      (State.keepsOrder_complete _ p _)
    obtain ⟨hserved, hpart⟩ := s.noteWrite_frame p w.addr p
    refine o.of_open (hserved.trans hs) (hpart.trans hp) rfl (o.path.joins ?_ ?_ hw)
    · rw [State.port_noteWrite]; exact hh
    · rw [State.port_noteWrite]; exact hq

/-- A write that becomes the blocking access of a port that has none (R130). -/
theorem State.keepsOrder_acceptBlocking (ht : s.takes p) (hp : s.part = .ready) (va : Half) (w : StoreWrite) :
    s.KeepsOrder (s.acceptBlocking p va w) := by
  unfold State.acceptBlocking
  split
  · exact s.keepsOrder_failWrite p _ va _
  · refine (s.keepsOrder_noteWrite p w.addr).trans
      (State.keepsOrder_updPort _ p (f := fun i => { i with blocking := some (.write w) }) rfl fun o => ?_)
    obtain ⟨hserved, hpart⟩ := s.noteWrite_frame p w.addr p
    refine o.of_open (hserved.trans ht.1) (hpart.trans hp) rfl (o.path.blocks ?_)
    rw [State.port_noteWrite]; exact (PortIface.not_busHeld_iff.mp ht.2).2

theorem State.keepsOrder_offerPosted (ht : s.takes p) (hp : s.part = .ready) (va : Half) {w : StoreWrite} (hw : w.be ≠ 0#4) :
    s.KeepsOrder (s.offerPosted p va w) := by
  obtain ⟨hb, hh⟩ := PortIface.not_busHeld_iff.mp ht.2
  unfold State.offerPosted
  split
  · next hq => exact State.keepsOrder_acceptPosted ht.1 hp hh hq va hw
  · next hq => exact s.keepsOrder_updPort p rfl fun o => o.of_open ht.1 hp rfl (o.path.holds hb hq hw)

theorem keepsOrder_takeViewRead (ht : s.takes p) (a : BusAddr) : s.KeepsOrder (takeViewRead p a s) := by
  unfold takeViewRead
  split
  · exact s.keepsOrder_failRead p _ a _
  · next hd =>
    split
    · exact s.keepsOrder_failRead p _ a _
    · exact s.keepsOrder_updPort p rfl fun o =>
        o.of_open ht.1 (State.ready_of_passes hd) rfl (o.path.blocks (PortIface.not_busHeld_iff.mp ht.2).2)

theorem keepsOrder_takeViewWrite (ht : s.takes p) (a : BusAddr) (be : Enables) (v : Word) :
    s.KeepsOrder (takeViewWrite p a be v s) := by
  unfold takeViewWrite
  split
  · exact s.keepsOrder_complete p .wrote
  · next hbe =>
    split
    · exact s.keepsOrder_failWrite p _ _ _
    · next hd => exact State.keepsOrder_offerPosted ht (State.ready_of_passes hd) _ hbe
    · next hd => exact State.keepsOrder_acceptBlocking ht (State.ready_of_passes hd) _ _

/-! ### Every access -/

/-- Every access that an interface takes. -/
theorem keepsOrder_takeAccess {c : Instr} (hc : (encodeBus c).map Prod.fst = some p) (ht : s.takes p) :
    s.KeepsOrder (takeAccess c s) := by
  cases c with
  | attach q c => obtain rfl := Option.some.inj hc; exact State.keepsOrder_launch (keepsOrder_decideAttach (by
      rw [← ht.1]; exact State.served_congr rfl (by rw [State.launched, State.port_updPort_self])) c)
  | detach q c => exact State.keepsOrder_launch (keepsOrder_decideDetach c)
  | acquire q c => exact State.keepsOrder_launch (keepsOrder_decideAcquire c)
  | cancel q c => exact State.keepsOrder_launch (keepsOrder_decideCancel c)
  | release q c => exact State.keepsOrder_launch (keepsOrder_decideRelease c)
  | renew q c => exact State.keepsOrder_launch (keepsOrder_decideRenew c)
  | makePrivate q c => exact State.keepsOrder_launch (keepsOrder_decideMakePrivate c)
  | relinquish q c => exact State.keepsOrder_launch (keepsOrder_decideRelinquish c)
  | digest q c => exact State.keepsOrder_launch (keepsOrder_decideDigest c)
  | message q c => exact State.keepsOrder_launch (keepsOrder_decideMessage c)
  | define q c => exact State.keepsOrder_launch (keepsOrder_decideDefine c)
  | modify q c => exact State.keepsOrder_launch (keepsOrder_decideModify c)
  | delete q c => exact State.keepsOrder_launch (keepsOrder_decideDelete c)
  | reclaim q c => exact State.keepsOrder_launch (keepsOrder_decideReclaim c)
  | evict q c => exact State.keepsOrder_launch (keepsOrder_decideEvict c)
  | badCommand q w =>
    exact s.keepsOrder_windowEffect q (f := fun i => { i with cmd := w, cres := Result.badCommand.code, cresv := 0#32 })
      fun _ => rfl
  | fclr q v => exact s.keepsOrder_windowEffect q (f := fun i => { i with fault := none }) fun _ => rfl
  | nmask q v => exact s.keepsOrder_windowEffect q (f := fun i => { i with kindMask := v.extractLsb' 1 8 }) fun _ => rfl
  | lwarn q v => exact s.keepsOrder_windowEffect q (f := fun i => { i with lwarn := v.extractLsb' 0 16 }) fun _ => rfl
  | fill q v => exact s.keepsOrder_windowEffect q (f := fun i => { i with fill := v }) fun _ => rfl
  | npop q v => exact s.keepsOrder_windowEffect q PortIface.busSide_pop
  | sarb q v => exact keepsOrder_takeSarb q v s
  | aperturePlacementWrite q n f v => exact s.keepsOrder_windowEffect q fun i => i.busSide_placeAperture n f v
  | attrWrite q n v => exact s.keepsOrder_windowEffect q fun i => i.busSide_writeAttr n v
  | pstatRead q =>
    exact s.keepsOrder_updPort_of_same q
      (f := fun i => { i with bus := .read (s.pstat q), popEmpty := false, apertureRefused := false }) rfl
  | windowWrite q off be v => exact s.keepsOrder_windowEffect q fun i => i.busSide_writeWindow off be v
  | viewRead q a => obtain rfl := Option.some.inj hc; exact keepsOrder_takeViewRead ht a
  | viewWrite q a be v => obtain rfl := Option.some.inj hc; exact keepsOrder_takeViewWrite ht a be v
  | _ => exact State.KeepsOrder.refl s

/-- Every command a host gives through its bus: taken, waiting for service, or overtaken by a reset (R126, R166). -/
theorem keepsOrder_exec_host {c : Instr} (hc : (encodeBus c).map Prod.fst = some p) (h : exec c s = .next t) :
    s.KeepsOrder t := by
  rw [exec_host_of_port s hc] at h
  obtain ⟨hwf, ⟨ht, rfl⟩ | ⟨hs, ⟨-, rfl⟩ | ⟨-, rfl⟩⟩⟩ := hostAccess_next h
  · exact keepsOrder_takeAccess hc ht
  · exact s.keepsOrder_updPort_of_same p rfl
  · exact s.keepsOrder_updPort p rfl fun o => ⟨o.path, o.unserved, o.starting, fun d hd =>
      Option.some.inj hd ▸ ⟨hs, hwf, hc⟩⟩

end Sys2Proof.Machine
end

section
/-! SUPPORT. The laws of the write paths and of the buses, kept by every step (O55): landings and fence requests at a write
path that is not empty, resets that leave a port at rest, and the return of a bus to service. -/

namespace Sys2Proof.Machine

section
variable {s t u : State} {p q : Port} {r : RegionIx}

theorem State.served_updPort (s : State) (p : Port) {f : PortIface → PortIface}
    (h : (f (s.port p)).resetLow = (s.port p).resetLow) : (s.updPort p f).served p = s.served p :=
  State.served_congr rfl ((congrArg _ (s.port_updPort_self p f)).trans h)

/-! ### A store slot given to a port -/

theorem State.keepsOrder_grantSlot {c : Client} (h : s.grantSlot c = some u) : s.KeepsOrder u := by
  obtain ⟨-, rfl⟩ := State.grantSlot_some h
  exact State.keepsOrder_of_ports rfl rfl fun _ => rfl

theorem State.keepsOrder_inSlot {c : Client} {k : State → State} (h : ∀ u, s.grantSlot c = some u → u.KeepsOrder (k u)) :
    s.KeepsOrder (s.inSlot c k) := by
  rcases s.inSlot_cases c k with hk | ⟨u, hu, hk⟩ <;> rw [hk]
  · exact State.KeepsOrder.refl s
  · exact (State.keepsOrder_grantSlot hu).trans (h u hu)

theorem State.keepsOrder_landWrite (s : State) (w : StoreWrite) : s.KeepsOrder (s.landWrite w) :=
  State.keepsOrder_of_ports rfl rfl fun _ => rfl

/-- The state after the head of port `p`'s posted queue has landed, before a held write's turn (R63, R133). -/
def State.landed (s : State) (p : Port) (w : StoreWrite) (rest : List StoreWrite) : State :=
  ((s.landWrite w).updPort p fun i => { i with posted := rest }).countLanding p

theorem State.port_landed (s : State) (p q : Port) (w : StoreWrite) (rest : List StoreWrite) : (s.landed p w rest).port q =
    if q = p then { s.port p with posted := rest, fences := marksLeft (s.port p).fences } else s.port q := by
  rw [State.landed, State.port_countLanding, State.port_updPort_self, State.port_updPort]
  split <;> rfl

theorem State.port_landed_self (s : State) (p : Port) (w : StoreWrite) (rest : List StoreWrite) :
    (s.landed p w rest).port p = { s.port p with posted := rest, fences := marksLeft (s.port p).fences } :=
  (s.port_landed p p w rest).trans (if_pos rfl)

theorem State.rstLow_landed (s : State) (p : Port) (w : StoreWrite) (rest : List StoreWrite) :
    (s.landed p w rest).rstLow = s.rstLow := State.rstLow_countLanding _ p

theorem State.part_landed (s : State) (p : Port) (w : StoreWrite) (rest : List StoreWrite) :
    (s.landed p w rest).part = s.part := State.part_countLanding _ p

theorem State.served_landed (s : State) (p : Port) (w : StoreWrite) (rest : List StoreWrite) :
    (s.landed p w rest).served p = s.served p :=
  State.served_congr (s.rstLow_landed p w rest) (by rw [State.port_landed_self])

/-- With the place free and no write held the port is orderly again (R127). -/
theorem State.keepsOrder_landed {w : StoreWrite} {rest : List StoreWrite} (hs : s.served p = true) (hp : s.part = .ready)
    (hq : (s.port p).posted = w :: rest) : s.KeepsOrder ((s.landed p w rest).updPort p fun i => { i with held := none }) := by
  have hothers : s.othersKept (s.landed p w rest) p := fun x hx => (s.port_landed p x w rest).trans (if_neg hx)
  have hself := s.port_landed_self p w rest
  have hrst := s.rstLow_landed p w rest
  have hpart := s.part_landed p w rest
  generalize s.landed p w rest = v at hothers hself hrst hpart ⊢
  refine State.keepsOrder_of_port (p := p) hrst hpart (hothers.trans (v.othersKept_updPort p _)) ?_ fun o => ?_
  · rw [State.port_updPort_self, hself]
  · rw [State.port_updPort_self, hself]
    obtain ⟨hlen, hbe, -, -⟩ := o.path
    rw [hq] at hlen hbe
    exact o.of_open hs hp rfl ⟨Nat.le_of_succ_le hlen, fun x hx => hbe x (List.mem_cons_of_mem w hx), nofun, nofun⟩

/-- A held write's turn at a queue with a place (R129). -/
theorem State.keepsOrder_acceptHeld (hs : s.served p = true) (hp : s.part = .ready)
    (hq : (s.port p).posted.length < Config.postedCapacity) (hbe : ∀ x, (s.port p).held = some x → x.write.be ≠ 0#4) :
    (s.updPort p fun i => { i with held := none }).KeepsOrder (s.acceptHeld p) := by
  unfold State.acceptHeld
  split
  · next hn =>
    refine State.keepsOrder_of_same rfl rfl fun q => ?_
    rw [State.port_updPort]
    split
    · next h => rw [h]; simp only [PortIface.busSide, hn]; rfl
    · rfl
  · next x hx =>
    rw [if_pos hq]
    refine State.keepsOrder_acceptPosted (s := s.updPort p fun i => { i with held := none }) ?_ hp ?_ ?_ x.viewAddr (hbe x hx)
    · exact (s.served_updPort p rfl).trans hs
    · rw [State.port_updPort_self]
    · rw [State.port_updPort_self]; exact hq

/-- The head of the posted queue lands, and a held write takes the place it leaves (R129, R133). -/
theorem State.orderly_landPosted (h : ∀ q, s.orderly q) (q : Port) : (State.landPosted p s).orderly q := by
  unfold State.landPosted
  split
  · exact h q
  · next w rest hq =>
    obtain ⟨hs, hp⟩ := (h p).open_of_path fun he => by rw [he.1] at hq; cases hq
    obtain ⟨hlen, -, hbe, -⟩ := (h p).path
    rw [hq] at hlen
    refine State.keepsOrder_acceptHeld (s := s.landed p w rest) ?_ ((s.part_landed p w rest).trans hp) ?_ ?_ q
      (State.keepsOrder_landed hs hp hq q (h q))
    · exact (s.served_landed p w rest).trans hs
    · rw [State.port_landed_self]; exact hlen
    · rw [State.port_landed_self]; exact hbe

/-- The blocking access leaves a write path, with marks counted or not (R130, R133). -/
theorem PortIface.Orderly.unblocked {i : PortIface} {served : Bool} {part : PartState} (o : i.Orderly p served part) {x : Blocking}
    (hx : i.blocking = some x) (b : BusResult) (l : List FenceMark) :
    ({ i with blocking := none, bus := b, fences := l } : PortIface).Orderly p served part := by
  obtain ⟨hs, hp⟩ := o.open_of_path fun he => by rw [he.2.1] at hx; cases hx
  obtain ⟨hlen, hbe, hheld, hfull⟩ := o.path
  exact o.of_open hs hp rfl ⟨hlen, hbe, hheld, fun h => ⟨(hfull h).1, rfl⟩⟩

theorem State.keepsOrder_landBlocking {w : StoreWrite} (hb : (s.port p).blocking = some (.write w)) :
    s.KeepsOrder (State.landBlocking p w s) := by
  have hport : ∀ q, (State.landBlocking p w s).port q = if q = p then
      { s.port p with blocking := none, bus := .wrote, fences := marksLeft (s.port p).fences } else s.port q := fun q => by
    rw [State.landBlocking, State.port_countLanding, State.port_updPort_self, State.port_updPort]
    split <;> rfl
  have hself := (hport p).trans (if_pos rfl)
  refine State.keepsOrder_of_port (p := p) (State.rstLow_countLanding _ p) (State.part_countLanding _ p)
    (fun q hq => (hport q).trans (if_neg hq)) (by rw [hself]) fun o => ?_
  rw [hself]
  exact o.unblocked hb _ _

theorem State.keepsOrder_readBlocking {w : StoreAddr} (hb : (s.port p).blocking = some (.read w)) :
    s.KeepsOrder (State.readBlocking p w s) := s.keepsOrder_updPort p rfl fun o => o.unblocked hb _ _

theorem keepsOrder_blockingWriteLanding (h : exec (.blockingWriteLanding p) s = .next t) : s.KeepsOrder t := by
  obtain rfl := Host.Outcome.next.inj h
  split
  · split
    · next w hb =>
      exact State.keepsOrder_inSlot fun u hu => State.keepsOrder_landBlocking (State.port_grantSlot hu p ▸ hb)
    · exact State.KeepsOrder.refl s
    · exact State.KeepsOrder.refl s
  · exact State.KeepsOrder.refl s

theorem keepsOrder_blockingReadSlot (h : exec (.blockingReadSlot p) s = .next t) : s.KeepsOrder t := by
  obtain rfl := Host.Outcome.next.inj h
  split
  · split
    · next w hb =>
      exact State.keepsOrder_inSlot fun u hu => State.keepsOrder_readBlocking (State.port_grantSlot hu p ▸ hb)
    · exact State.KeepsOrder.refl s
    · exact State.KeepsOrder.refl s
  · exact State.KeepsOrder.refl s

theorem orderly_postedWriteLanding (ho : ∀ q, s.orderly q) (h : exec (.postedWriteLanding p) s = .next t) (q : Port) :
    t.orderly q := by
  obtain rfl := Host.Outcome.next.inj h
  split
  · exact ho q
  · rcases s.inSlot_cases (.port p) (State.landPosted p) with h | ⟨u, hu, h⟩ <;> rw [h]
    · exact ho q
    · exact State.orderly_landPosted (fun x => State.keepsOrder_grantSlot hu x (ho x)) q

/-- A lawful write is held behind a full queue only, so its own row finds no place for it (R129, log entry 4). -/
theorem State.acceptHeld_of_orderly (o : s.orderly p) : s.acceptHeld p = s := by
  unfold State.acceptHeld
  split
  · rfl
  · next x hx =>
    obtain ⟨-, -, -, hfull⟩ := o.path
    have hlen := (hfull (by rw [hx]; rfl)).1
    exact if_neg (by rw [hlen]; exact Nat.lt_irrefl _)

/-! ### Requests and completions -/

/-- A mark is made at a path with a write in it only, which is that of a served bus (R62, R136). -/
theorem keepsOrder_fenceRequest (h : exec (.fenceRequest p r) s = .next t) : s.KeepsOrder t := by
  obtain rfl := Host.Outcome.next.inj h
  split
  · have taken : s.KeepsOrder { s with fenceRequests := s.fenceRequests.erase (p, r) } :=
      State.keepsOrder_of_ports rfl rfl fun _ => rfl
    refine taken.trans ?_
    generalize ({ s with fenceRequests := s.fenceRequests.erase (p, r) } : State) = u
    unfold State.takeFence
    split
    · exact State.keepsOrder_of_ports rfl rfl fun _ => rfl
    · next hn =>
      refine u.keepsOrder_updPort p (f := fun i => { i with fences := i.fences ++ [⟨r, i.writesInPath⟩] }) rfl fun o => ?_
      obtain ⟨hs, hp⟩ := o.open_of_path fun he => hn (by
        obtain ⟨hq, hb, -, -⟩ := he
        simp [PortIface.writesInPath, hq, hb])
      exact o.of_open hs hp rfl o.path
  · exact State.KeepsOrder.refl s

theorem keepsOrder_fenceCompletion (h : exec (.fenceCompletion p r) s = .next t) : s.KeepsOrder t := by
  obtain rfl := Host.Outcome.next.inj h
  split
  · have taken : s.KeepsOrder { s with completions := s.completions.erase (p, r) } :=
      State.keepsOrder_of_ports rfl rfl fun _ => rfl
    refine taken.trans ?_
    generalize ({ s with completions := s.completions.erase (p, r) } : State) = u
    dsimp only
    split
    · exact (u.keepsOrder_setSlot r _).trans (State.regionEvent_decideDrain _ r).keepsOrder
    · exact State.KeepsOrder.refl u
  · exact State.KeepsOrder.refl s

/-! ### The sweep engine's events -/

theorem State.keepsOrder_startNext (s : State) : s.KeepsOrder s.startNext :=
  State.keepsOrder_of_ports s.rstLow_startNext s.part_startNext s.port_startNext

theorem State.keepsOrder_advanceJob (s : State) (x : Progress) : s.KeepsOrder (s.advanceJob x) := by
  unfold State.advanceJob
  split
  · exact State.keepsOrder_of_ports rfl rfl fun _ => rfl
  · exact State.KeepsOrder.trans (t := { s with current := none, reports := s.reports ++ [x.report] })
      (State.keepsOrder_of_ports rfl rfl fun _ => rfl) (State.keepsOrder_startNext _)

theorem keepsOrder_wipeWord (h : exec .wipeWord s = .next t) : s.KeepsOrder t := by
  obtain rfl := Host.Outcome.next.inj h
  split
  · exact State.KeepsOrder.refl s
  · split
    · exact State.keepsOrder_inSlot fun u _ => (u.keepsOrder_landWrite _).trans (State.keepsOrder_advanceJob _ _)
    · exact State.KeepsOrder.refl s

theorem keepsOrder_digestWord (h : exec .digestWord s = .next t) : s.KeepsOrder t := by
  obtain rfl := Host.Outcome.next.inj h
  split
  · exact State.KeepsOrder.refl s
  · split
    · exact State.keepsOrder_inSlot fun u _ => u.keepsOrder_advanceJob _
    · exact State.KeepsOrder.refl s

theorem keepsOrder_jobStart (h : exec .jobStart s = .next t) : s.KeepsOrder t := by
  obtain rfl := Host.Outcome.next.inj h
  exact State.keepsOrder_of_ports (by simp) (by simp) fun q => by simp

/-- The part becomes READY, which asks nothing more of the ports (R104). -/
theorem State.keepsOrder_endSweep (s : State) : s.KeepsOrder s.endSweep := by
  rcases s.endSweep_cases with h | ⟨-, -, h⟩ <;> rw [h]
  · exact State.KeepsOrder.refl s
  · exact fun q o => ⟨o.path, o.unserved, nofun, o.waiting⟩

theorem keepsOrder_sweepWord (h : exec .sweepWord s = .next t) : s.KeepsOrder t := by
  obtain rfl := Host.Outcome.next.inj h
  split
  · split
    · exact State.KeepsOrder.refl s
    · next n _ =>
      refine State.keepsOrder_inSlot fun u _ => ((u.keepsOrder_landWrite ⟨BitVec.ofNat 15 n, 0#32, 15#4⟩).trans ?_).trans
        (State.keepsOrder_endSweep _)
      exact State.keepsOrder_of_ports rfl rfl fun _ => rfl
  · exact State.KeepsOrder.refl s

theorem State.keepsOrder_offerTo (s : State) (q : Option Port) (x : Record) : s.KeepsOrder (s.offerTo q x) :=
  (State.Changes.toRegionEvent (State.continues_offerTo (A := fun _ => False) s 0 q x)).keepsOrder

theorem State.keepsOrder_dropReport (s : State) (l : List Report) : s.KeepsOrder { s with reports := l } :=
  State.keepsOrder_of_ports rfl rfl fun _ => rfl

theorem State.keepsOrder_finishWipe (s : State) (r : RegionIx) (g : Region) (q : Option Port) :
    s.KeepsOrder (s.finishWipe r g q) :=
  ((s.keepsOrder_setSlot r _).trans (State.keepsOrder_offerTo _ q _)).trans (State.keepsOrder_grantPass _ r)

theorem State.keepsOrder_finishDigest (s : State) (r : RegionIx) (g : Region) (q : Option Port) (v : Word) :
    s.KeepsOrder (s.finishDigest r g q v) :=
  (((s.keepsOrder_setSlot r _).trans (State.keepsOrder_offerTo _ q _)).trans (State.keepsOrder_grantPass _ r)).trans
    (State.regionOp_afterDigest (A := fun _ => False) _ r g).toRegionEvent.keepsOrder

theorem keepsOrder_wipeCompletion (h : exec (.wipeCompletion r) s = .next t) : s.KeepsOrder t := by
  obtain rfl := Host.Outcome.next.inj h
  split
  · next r' rest _ =>
    split
    · refine (s.keepsOrder_dropReport rest).trans ?_
      dsimp only
      split
      · split
        · exact State.keepsOrder_finishWipe _ _ _ _
        · exact State.KeepsOrder.refl _
      · exact State.KeepsOrder.refl _
    · exact State.KeepsOrder.refl s
  · exact State.KeepsOrder.refl s

theorem keepsOrder_digestCompletion (h : exec (.digestCompletion r) s = .next t) : s.KeepsOrder t := by
  obtain rfl := Host.Outcome.next.inj h
  split
  · next r' v rest _ =>
    split
    · refine (s.keepsOrder_dropReport rest).trans ?_
      dsimp only
      split
      · split
        · exact State.keepsOrder_finishDigest _ _ _ _ _
        · exact State.KeepsOrder.refl _
      · exact State.KeepsOrder.refl _
    · exact State.KeepsOrder.refl s
  · exact State.KeepsOrder.refl s

theorem State.keepsOrder_takeTick (s : State) : s.KeepsOrder s.takeTick :=
  State.KeepsOrder.trans (t := { s with divider := 0 }) (State.keepsOrder_of_ports rfl rfl fun _ => rfl)
    (State.lockEvent_tickAll { s with divider := 0 }).keepsOrder

/-! ### The return of a bus to service -/

/-- Port `p`, at rest until now: the access that waited is taken if the bus is served, and no other port's interface changes
(R166, R171). -/
theorem State.orderly_resume (h : (s.port p).AtRest p) : (s.resume p).orderly p ∧ s.othersKept (s.resume p) p := by
  refine ⟨?_, (serveWaiting_eq_resume h.awaitsService).2⟩
  cases hs : s.served p with
  | false =>
    rw [State.resume_of_not_served hs, State.orderly, hs]
    exact h.orderly (.inl rfl)
  | true =>
    cases hw : (s.port p).waiting with
    | none =>
      rw [State.resume_of_none hw]
      exact h.orderly (.inr hw)
    | some c =>
      rw [(State.resume_of_waiting hs hw).1]
      obtain ⟨-, hc⟩ := h.own c hw
      have hport := s.port_updPort_self p fun i => { i with waiting := none }
      have hup := (s.served_updPort p (f := fun i => { i with waiting := none }) rfl).trans hs
      generalize s.updPort p (fun i => { i with waiting := none }) = u at hport hup ⊢
      have rest : (u.port p).AtRest p := hport ▸ h.cleared
      exact keepsOrder_takeAccess hc ⟨hup, rest.awaitsService.free⟩ p (rest.orderly (.inr (by rw [hport])))

/-- An orderly port is orderly after an event that leaves the lines, the part state and its interface. -/
theorem State.orderly_of_frame (o : s.orderly q) (f : s.Frame t) (h : t.port q = s.port q) : t.orderly q := by
  rw [State.orderly, State.served_congr f.rstLow (congrArg _ h), f.part, h]
  exact o

theorem orderly_portReset (ho : ∀ q, s.orderly q) (h : exec (.portReset p) s = .next t) (q : Port) : t.orderly q := by
  obtain rfl := Host.Outcome.next.inj h
  have hport : (s.setLine p true).port p = { s.port p with resetLow := true } := s.port_updPort_self p _
  have hothers : q ≠ p → (s.setLine p true).orderly q := fun hq => State.orderly_of_frame (ho q)
    (s.beside_setLine p true).toSameCore.frame (s.othersKept_updPort p _ q hq)
  have hlow : (s.setLine p true).served p = false := by simp [State.served, hport]
  split
  · exact ho q
  · split
    · next hr =>
      by_cases hq : q = p
      · subst hq
        have rest := (ho q).atRest (by simp [State.served, hr])
        rw [State.orderly, hlow, hport]
        exact (rest.setLine true).orderly (.inl rfl)
      · exact hothers hq
    · refine State.orderly_resetPort _ hothers fun _ c hc => ⟨hlow, ?_⟩
      rw [hport] at hc
      exact ((ho p).waiting c hc).2

theorem orderly_portResetRelease (ho : ∀ q, s.orderly q) (h : exec (.portResetRelease p) s = .next t) (q : Port) :
    t.orderly q := by
  obtain rfl := Host.Outcome.next.inj h
  split
  · next hl =>
    have rest := (ho p).atRest (by simp [State.served, hl])
    have hport : (s.setLine p false).port p = { s.port p with resetLow := false } := s.port_updPort_self p _
    obtain ⟨hself, hothers⟩ := State.orderly_resume (s := s.setLine p false) (p := p) (hport ▸ rest.setLine false)
    by_cases hq : q = p
    · exact hq ▸ hself
    · exact State.orderly_of_frame (ho q)
        ((s.beside_setLine p false).toSameCore.frame.trans (State.effect_resume _ p).frame)
        ((hothers q hq).trans (s.othersKept_updPort p _ q hq))
  · exact ho q

/-- The ports served again one after another, each at rest until its turn (R171, log entry 16). -/
theorem State.orderly_foldl_resume {l : List Port} (hl : l.Nodup) (hin : ∀ q ∈ l, (s.port q).AtRest q)
    (hout : ∀ q, q ∉ l → s.orderly q) (q : Port) : (l.foldl State.resume s).orderly q := by
  induction l generalizing s with
  | nil => exact hout q List.not_mem_nil
  | cons p l ih =>
    obtain ⟨hp, hl⟩ := List.nodup_cons.mp hl
    obtain ⟨h0, hin⟩ := List.forall_mem_cons.mp hin
    obtain ⟨hself, hothers⟩ := State.orderly_resume h0
    refine ih hl (fun x hx => ?_) fun x hx => ?_
    · rw [hothers x fun e => hp (e ▸ hx)]
      exact hin x hx
    · by_cases hxp : x = p
      · exact hxp ▸ hself
      · exact State.orderly_of_frame (hout x (by simp [hxp, hx])) (s.effect_resume p).frame (hothers x hxp)

theorem orderly_resetRelease {b : BitVec 2} (ho : ∀ q, s.orderly q) (h : exec (.resetRelease b) s = .next t) (q : Port) :
    t.orderly q := by
  obtain rfl := Host.Outcome.next.inj h
  split
  · next hr =>
    refine State.orderly_foldl_resume allPorts_nodup (fun x _ => ?_) (fun x hx => absurd (mem_allPorts x) hx) q
    have hport : ∀ v : State, v.endSweep.port x = v.port x := fun v => by
      rcases v.endSweep_cases with h | ⟨-, -, h⟩ <;> rw [h]
      rfl
    rw [hport]
    exact (ho x).atRest (by simp [State.served, hr])
  · exact ho q

/-- A part reset leaves every port at rest and unserved (R171). -/
theorem State.orderly_partReset (ho : ∀ q, s.orderly q) (b : List Instr) (l : List Extent) (q : Port) :
    (s.partReset b l).orderly q := by
  have hport : (s.partReset b l).port q = (s.port q).restored (s.cmdOnBus q b) := PerPort.get_ofFun _ q
  rw [State.orderly, hport]
  exact (PortIface.atRest_restored _ fun c hc => ((ho q).waiting c hc).2).orderly (.inl rfl)

/-! ### Every step -/

theorem orderly_exec {c : Instr} (ho : ∀ q, s.orderly q) (h : exec c s = .next t) (q : Port) : t.orderly q := by
  cases c
  case postedWriteAccept p => exact Host.Outcome.next.inj h ▸ (State.acceptHeld_of_orderly (ho p)).symm ▸ ho q
  case postedWriteLanding => exact orderly_postedWriteLanding ho h q
  case blockingWriteLanding => exact keepsOrder_blockingWriteLanding h q (ho q)
  case blockingReadSlot => exact keepsOrder_blockingReadSlot h q (ho q)
  case wipeWord => exact keepsOrder_wipeWord h q (ho q)
  case digestWord => exact keepsOrder_digestWord h q (ho q)
  case sweepWord => exact keepsOrder_sweepWord h q (ho q)
  case startupSweepEnd => exact Host.Outcome.next.inj h ▸ s.keepsOrder_endSweep q (ho q)
  case fenceRequest => exact keepsOrder_fenceRequest h q (ho q)
  case fenceCompletion => exact keepsOrder_fenceCompletion h q (ho q)
  case drainEnd r => exact Host.Outcome.next.inj h ▸ (s.regionEvent_decideDrain r).keepsOrder q (ho q)
  case leaseTick =>
    obtain rfl := Host.Outcome.next.inj h
    split
    · exact ho q
    · exact s.keepsOrder_takeTick q (ho q)
  case leaseExpiry r => exact Host.Outcome.next.inj h ▸ (s.regionEvent_expireRegion r).keepsOrder q (ho q)
  case jobStart => exact keepsOrder_jobStart h q (ho q)
  case wipeCompletion => exact keepsOrder_wipeCompletion h q (ho q)
  case digestCompletion => exact keepsOrder_digestCompletion h q (ho q)
  case portReset => exact orderly_portReset ho h q
  case portResetRelease => exact orderly_portResetRelease ho h q
  case warmReset =>
    obtain rfl := Host.Outcome.next.inj h
    split
    · exact ho q
    · split <;> exact State.orderly_partReset ho _ _ q
  case resetRelease b => exact orderly_resetRelease ho h q
  case powerOn =>
    exact Host.Outcome.next.inj h ▸ State.keepsOrder_of_ports (s := s.partReset [] [⟨0, Config.storePages⟩]) rfl rfl (fun _ => rfl) q
      (State.orderly_partReset ho [] [⟨0, Config.storePages⟩] q)
  case aperturePlacementWrite p n f v => exact keepsOrder_exec_host (p := p) (by cases f <;> rfl) h q (ho q)
  all_goals exact keepsOrder_exec_host rfl h q (ho q)

end

/-- Settles O55: at each port every event keeps the write path's bounds, and what a bus out of service asks. -/
theorem stepKeepsPathsLaw : Obligations.StepKeepsPathsLaw := by
  intro s t hp hb h
  have ho := s.orderly_iff.mpr ⟨hp, hb⟩
  refine t.orderly_iff.mp fun q => ?_
  unfold step at h
  split at h
  · obtain rfl := Host.Outcome.next.inj h
    unfold State.refclkPeriod
    split
    · exact ho q
    · split
      · exact State.keepsOrder_of_ports (s := s) rfl rfl (fun _ => rfl) q (ho q)
      · exact s.keepsOrder_takeTick q (ho q)
  · next c rest _ => exact orderly_exec (s := { s with pending := rest }) (fun x => ho x) h q

end Sys2Proof.Machine
end

section
/-! SUPPORT. The obligation on bus accesses and commands (O3): the fields of a command word and of an aperture word's
offset, the two maps row by row, and their agreement. -/

namespace Sys2Proof

/-! ### The fields of a command word (11.4) -/

theorem Port.bits_ofBits (b : BitVec 2) : (Port.ofBits b).bits = b := by
  revert b; decide

theorem Port.ofBits_bits (p : Port) : Port.ofBits p.bits = p := by cases p <;> rfl

theorem ofBool_getLsbD {w : Nat} (x : BitVec w) (i : Nat) : BitVec.ofBool (x.getLsbD i) = x.extractLsb' i 1 := by
  refine BitVec.eq_of_getLsbD_eq fun k hk => ?_
  obtain rfl : k = 0 := by omega
  simp

theorem getLsbD_of_extract {w : Nat} {x : BitVec w} {i : Nat} {b : Bool} (h : x.extractLsb' i 1 = BitVec.ofBool b) :
    x.getLsbD i = b := by
  rw [← ofBool_getLsbD] at h
  revert h
  cases x.getLsbD i <;> cases b <;> decide

theorem CmdFields.commandCode_word (c : CmdFields) (code : Byte) : commandCode (c.word code) = code :=
  BitVec.extractLsb'_append_eq_right

theorem CmdFields.ofWord_word (c : CmdFields) (code : Byte) : CmdFields.ofWord (c.word code) = c := by
  obtain ⟨region, exclusive, wait, target, gapLow, gapMid, gapHigh⟩ := c
  simp only [CmdFields.ofWord, CmdFields.word, CmdFields.mk.injEq]
  refine ⟨?_, getLsbD_of_extract ?_, getLsbD_of_extract ?_, ?_, ?_, ?_, ?_⟩ <;>
    simp (disch := omega) only [BitVec.extractLsb'_append_eq_of_le, BitVec.extractLsb'_append_eq_of_add_le, Nat.reduceSub,
      Nat.sub_self, BitVec.extractLsb'_eq_self, Port.ofBits_bits]

theorem CmdFields.word_ofWord (w : Word) : (CmdFields.ofWord w).word (commandCode w) = w := by
  simp only [CmdFields.word, CmdFields.ofWord, commandCode, Port.bits_ofBits, ofBool_getLsbD, BitVec.ofFin_toFin]
  simp (disch := rfl) only [BitVec.extractLsb'_append_extractLsb'_eq_extractLsb', BitVec.extractLsb'_eq_self]

/-! ### The offset of an aperture word (R109) -/

theorem apertureOffset_entry (n : ApertureIx) (f : BitVec 2) : (apertureOffset n f).extractLsb' 2 3 = BitVec.ofFin n := by
  simp (disch := omega) only [apertureOffset, BitVec.extractLsb'_append_eq_of_le, BitVec.extractLsb'_append_eq_of_add_le,
    Nat.sub_self, BitVec.extractLsb'_eq_self]

theorem apertureOffset_word (n : ApertureIx) (f : BitVec 2) : (apertureOffset n f).extractLsb' 0 2 = f :=
  BitVec.extractLsb'_append_eq_right

theorem isApertureOffset_iff (off : BitVec 8) : isApertureOffset off = true ↔ off.extractLsb' 5 3 = 1#3 := by
  rw [isApertureOffset, Bool.and_eq_true, decide_eq_true_eq, decide_eq_true_eq, BitVec.le_def, BitVec.le_def,
    ← BitVec.toNat_inj, BitVec.extractLsb'_toNat, Nat.shiftRight_eq_div_pow]
  have := off.isLt
  simp only [BitVec.toNat_ofNat]
  omega

theorem isApertureOffset_apertureOffset (n : ApertureIx) (f : BitVec 2) : isApertureOffset (apertureOffset n f) = true := by
  rw [isApertureOffset_iff]
  simp (disch := omega) only [apertureOffset, BitVec.extractLsb'_append_eq_of_le, Nat.reduceSub, BitVec.extractLsb'_eq_self]

/-- The aperture word at an offset of the table's (R109). -/
theorem apertureOffset_of_isApertureOffset {off : BitVec 8} (h : isApertureOffset off = true) :
    apertureOffset (off.extractLsb' 2 3).toFin (off.extractLsb' 0 2) = off := by
  rw [apertureOffset, BitVec.ofFin_toFin, ← (isApertureOffset_iff off).mp h]
  simp (disch := rfl) only [BitVec.extractLsb'_append_extractLsb'_eq_extractLsb', BitVec.extractLsb'_eq_self]

/-! ### Accesses of the window (R174) -/

section
variable (p : Port) (off : BitVec 8) (be : Enables) (v : Word)

theorem windowAddr_lt : ¬ Config.viewStart ≤ (off.zeroExtend 14 : BusAddr).toNat := by
  have := off.isLt
  simp [Config.viewStart]
  omega

theorem extract_windowAddr : (off.zeroExtend 14 : BusAddr).extractLsb' 0 8 = off := by
  simp [BitVec.extractLsb'_setWidth_of_le]

theorem windowAddr_extract {a : BusAddr} (h : ¬ Config.viewStart ≤ a.toNat) : (a.extractLsb' 0 8).zeroExtend 14 = a := by
  have h : a.toNat < 256 := Nat.not_le.mp h
  refine BitVec.eq_of_toNat_eq ?_
  simp
  omega

theorem decodeBus_window : decodeBus p (.write (off.zeroExtend 14) be v) = some (decodeWindowWrite p off be v) := by
  rw [decodeBus, if_neg (windowAddr_lt off), extract_windowAddr]

theorem decodeBus_fullWrite : decodeBus p (fullWrite off v) = some (decodeWindowWrite p off 15#4 v) :=
  decodeBus_window p off 15#4 v

theorem decodeBus_cmd : decodeBus p (fullWrite 0x01#8 v) = some (decodeCommand p v) := decodeBus_fullWrite p 0x01#8 v

/-- The aperture words have no other row (11.1). -/
theorem decodeBus_aperture {off : BitVec 8} (h : isApertureOffset off = true) :
    decodeBus p (fullWrite off v) = some (decodeApertureWrite p off v) := by
  have ne : ∀ k, isApertureOffset k = false → off ≠ k := fun k hk e => by rw [e, hk] at h; cases h
  rw [decodeBus_fullWrite]
  simp [decodeWindowWrite, h, ne 0x01#8 rfl, ne 0x0C#8 rfl, ne 0x0D#8 rfl, ne 0x0E#8 rfl, ne 0x0F#8 rfl, ne 0x14#8 rfl,
    ne 0xC0#8 rfl]

/-- A full write of a word without a row of its own, and every partial write (R174). -/
theorem decodeWindowWrite_of_wf (h : (Instr.windowWrite p off be v).wf = true) :
    decodeWindowWrite p off be v = .windowWrite p off be v := by
  unfold decodeWindowWrite
  split
  · rfl
  · next hbe =>
    simp only [Instr.wf, hbe, decide_false, Bool.false_or, isOwnedOffset, Config.ownedOffsets, List.contains_eq_mem,
      List.mem_cons, List.not_mem_nil, or_false, Bool.not_eq_true', Bool.or_eq_false_iff, decide_eq_false_iff_not, not_or] at h
    simp [h]

end

/-! ### The two maps -/

/-- A well-formed command's access decodes to the command. -/
theorem decodeBus_of_encodeBus {p : Port} {b : BusAccess} {i : Instr} (hwf : i.wf = true) (h : encodeBus i = some (p, b)) :
    decodeBus p b = some i := by
  cases i with
  | attach | detach | acquire | cancel | release | renew | makePrivate | relinquish | digest | message | define | modify
  | delete | reclaim | evict =>
    obtain ⟨rfl, rfl⟩ := Prod.mk.inj (Option.some.inj h)
    rw [decodeBus_cmd]
    simp [decodeCommand, CmdFields.commandCode_word, CmdFields.ofWord_word]
  | badCommand q w =>
    obtain ⟨rfl, rfl⟩ := Prod.mk.inj (Option.some.inj h)
    rw [decodeBus_cmd]
    simp only [Instr.wf, Config.commandCodes, List.contains_eq_mem, List.mem_cons, List.not_mem_nil, or_false,
      Bool.not_eq_true', decide_eq_false_iff_not, not_or] at hwf
    simp [decodeCommand, hwf]
  | npop | nmask | lwarn | fill | fclr | sarb =>
    obtain ⟨rfl, rfl⟩ := Prod.mk.inj (Option.some.inj h)
    rw [decodeBus_fullWrite]
    rfl
  | aperturePlacementWrite q n f v =>
    cases f <;>
      obtain ⟨rfl, rfl⟩ := Prod.mk.inj (Option.some.inj h) <;>
      simp [decodeBus_aperture, isApertureOffset_apertureOffset, decodeApertureWrite, apertureOffset_entry, apertureOffset_word]
  | attrWrite q n v =>
    obtain ⟨rfl, rfl⟩ := Prod.mk.inj (Option.some.inj h)
    simp [decodeBus_aperture, isApertureOffset_apertureOffset, decodeApertureWrite, apertureOffset_entry, apertureOffset_word]
  | pstatRead q =>
    obtain ⟨rfl, rfl⟩ := Prod.mk.inj (Option.some.inj h)
    rfl
  | windowWrite q off be v =>
    obtain ⟨rfl, rfl⟩ := Prod.mk.inj (Option.some.inj h)
    rw [decodeBus_window, decodeWindowWrite_of_wf q off be v hwf]
  | viewRead q a | viewWrite q a be v =>
    obtain ⟨rfl, rfl⟩ := Prod.mk.inj (Option.some.inj h)
    exact if_pos (of_decide_eq_true hwf)
  | _ => cases h

/-- The term is the row of this access: it is well-formed, and the access is its own. -/
def Instr.isRowOf (i : Instr) (p : Port) (b : BusAccess) : Prop := i.wf = true ∧ encodeBus i = some (p, b)

theorem Instr.isRowOf.ite {c : Prop} [Decidable c] {i j : Instr} {p : Port} {b : BusAccess} (hi : c → i.isRowOf p b)
    (hj : ¬ c → j.isRowOf p b) : (if c then i else j).isRowOf p b := by
  split
  · next h => exact hi h
  · next h => exact hj h

section
variable (p : Port) (v : Word)

theorem decodeCommand_isRowOf : (decodeCommand p v).isRowOf p (fullWrite 0x01#8 v) := by
  have row : ∀ code, commandCode v = code →
      some (p, fullWrite 0x01#8 ((CmdFields.ofWord v).word code)) = some (p, fullWrite 0x01#8 v) := fun code hc => by
    rw [← hc, CmdFields.word_ofWord]
  unfold decodeCommand
  dsimp only
  iterate 15
    refine .ite (fun hc => ⟨rfl, row _ hc⟩) fun _ => ?_
  clear row
  refine ⟨?_, rfl⟩
  simp [Instr.wf, Config.commandCodes, *]

theorem decodeApertureWrite_isRowOf {off : BitVec 8} (h : isApertureOffset off = true) :
    (decodeApertureWrite p off v).isRowOf p (fullWrite off v) := by
  have row : ∀ f, off.extractLsb' 0 2 = f →
      some (p, fullWrite (apertureOffset (off.extractLsb' 2 3).toFin f) v) = some (p, fullWrite off v) := fun f hf => by
    rw [← hf, apertureOffset_of_isApertureOffset h]
  unfold decodeApertureWrite
  dsimp only
  refine .ite (fun hf => ⟨rfl, row _ hf⟩) fun h0 => .ite (fun hf => ⟨rfl, row _ hf⟩) fun h1 =>
    .ite (fun hf => ⟨rfl, row _ hf⟩) fun h2 => ⟨rfl, row 3#2 ?_⟩
  generalize off.extractLsb' 0 2 = f at h0 h1 h2
  revert f
  decide

theorem decodeWindowWrite_isRowOf (off : BitVec 8) (be : Enables) :
    (decodeWindowWrite p off be v).isRowOf p (.write (off.zeroExtend 14) be v) := by
  refine .ite (fun hbe => ⟨by simp [Instr.wf, hbe], rfl⟩) fun hbe => ?_
  obtain rfl : be = 15#4 := not_not.mp hbe
  refine .ite (fun ho => ho ▸ decodeCommand_isRowOf p v) fun _ => ?_
  iterate 6
    refine .ite (fun ho => ⟨rfl, ho ▸ rfl⟩) fun _ => ?_
  refine .ite (decodeApertureWrite_isRowOf p v) fun _ => ⟨?_, rfl⟩
  simp [Instr.wf, isOwnedOffset, Config.ownedOffsets, *]

/-- What an access decodes to is the row of it (R108, R174). -/
theorem isRowOf_of_decodeBus {p : Port} {b : BusAccess} {i : Instr} (h : decodeBus p b = some i) : i.isRowOf p b := by
  cases b with
  | read a =>
    dsimp only [decodeBus] at h
    split at h
    · next ha => obtain rfl := Option.some.inj h; exact ⟨decide_eq_true ha, rfl⟩
    · split at h
      · next ha => obtain rfl := Option.some.inj h; exact ⟨rfl, ha ▸ rfl⟩
      · cases h
  | write a be v =>
    dsimp only [decodeBus] at h
    split at h
    · next ha => obtain rfl := Option.some.inj h; exact ⟨decide_eq_true ha, rfl⟩
    · next ha =>
      obtain rfl := Option.some.inj h
      have row := decodeWindowWrite_isRowOf p v (a.extractLsb' 0 8) be
      rwa [windowAddr_extract ha] at row

end

/-- Settles O3: an access decodes to a row of its own, and a row's access to the row. -/
theorem busAccessAndCommandAgree : Obligations.BusAccessAndCommandAgree := fun _ _ _ =>
  ⟨isRowOf_of_decodeBus, fun ⟨hwf, h⟩ => decodeBus_of_encodeBus hwf h⟩

end Sys2Proof
end

section
/-! SUPPORT. The obligations on the aperture table and the view decoder (O20, O21, O24). -/

namespace Sys2Proof.Machine

/-! ### Writes of an aperture entry -/

section
variable {i : PortIface} {n : ApertureIx} {v : Word}

theorem PortIface.placeAperture_of_disabled (h : (i.aperture n).enabled = false) (f : Placement) :
    i.placeAperture n f v = i.setAperture n ((i.aperture n).place f v) := by simp [PortIface.placeAperture, h]

theorem PortIface.placeAperture_of_enabled (h : (i.aperture n).enabled = true) (f : Placement) :
    i.placeAperture n f v = { i with apertureRefused := true } := by simp [PortIface.placeAperture, h]

/-- An ATTR write that disables the entry, or leaves it disabled, is taken (R112). -/
theorem PortIface.writeAttr_disable (hv : v.getLsbD 0 = false) :
    i.writeAttr n v = i.setAperture n { (i.aperture n).withFlags v with enabled := false } := by
  have kept : (i.aperture n).enabled = false →
      (i.aperture n).withFlags v = { (i.aperture n).withFlags v with enabled := false } := fun he => by rw [← he]; rfl
  cases he : (i.aperture n).enabled <;> simp only [PortIface.writeAttr, hv, he]
  rw [kept he]

/-- An ATTR write that enables a disabled entry, unless its placement is refused (R112, R113). -/
theorem PortIface.writeAttr_enable (hv : v.getLsbD 0 = true) (he : (i.aperture n).enabled = false) :
    i.writeAttr n v = if (i.aperture n).placementBad then { i with apertureRefused := true }
      else i.setAperture n { (i.aperture n).withFlags v with enabled := true } := by simp only [PortIface.writeAttr, hv, he]

/-- An ATTR write that keeps an entry enabled may not change its flags (R112). -/
theorem PortIface.writeAttr_keep (hv : v.getLsbD 0 = true) (he : (i.aperture n).enabled = true) :
    i.writeAttr n v = if (i.aperture n).sameFlags v then i else { i with apertureRefused := true } := by
  simp only [PortIface.writeAttr, hv, he]

end

theorem Aperture.placementBad_iff (a : Aperture) : a.placementBad = true ↔
    8 < a.sizeExp.toNat ∨ (a.viewPage.toNat * 256) % (256 * 2 ^ a.sizeExp.toNat) ≠ 0 ∨ a.viewPage.toNat * 256 < 0x400 ∨
      0x10000 < a.viewPage.toNat * 256 + 256 * 2 ^ a.sizeExp.toNat ∨ 511 < a.storePage.toNat := by
  simp only [Aperture.placementBad, Bool.or_eq_true, decide_eq_true_eq, bne_iff_ne, or_assoc]
  rfl

theorem Aperture.sameFlags_iff (a : Aperture) (v : Word) : a.sameFlags v = true ↔
    a.readOk = v.getLsbD 1 ∧ a.writeOk = v.getLsbD 2 ∧ a.posted = v.getLsbD 3 := by
  simp only [Aperture.sameFlags, Bool.and_eq_true, beq_iff_eq, and_assoc]

/-- Settles O20. -/
theorem placementWriteTaken : Obligations.PlacementWriteTaken := by
  intro s p n v ht a
  have taken : ∀ f, exec (.aperturePlacementWrite p n f v) s = .next (s.wrote p fun i => i.placeAperture n f v) := fun _ =>
    exec_of_windowEffect ht rfl rfl
  refine ⟨fun he => ?_, fun he f => ?_⟩
  · have placed : ∀ f, exec (.aperturePlacementWrite p n f v) s = .next (s.wrote p fun i => i.setAperture n (a.place f v)) :=
      fun f => (taken f).trans (congrArg _ (State.wrote_congr (PortIface.placeAperture_of_disabled he f)))
    exact ⟨placed .view, placed .size, placed .store⟩
  · exact (taken f).trans (congrArg _ (State.wrote_congr (PortIface.placeAperture_of_enabled he f)))

/-- Settles O21. -/
theorem attrWriteTaken : Obligations.AttrWriteTaken := by
  intro s p n v ht a base size refused flags same
  have becomes : ∀ f : PortIface → PortIface, (s.port p).writeAttr n v = f (s.port p) →
      exec (.attrWrite p n v) s = .next (s.wrote p f) := fun f hf =>
    (exec_of_windowEffect ht rfl rfl).trans (congrArg _ (State.wrote_congr hf))
  refine ⟨fun hv => becomes _ (PortIface.writeAttr_disable hv), fun hv he hr => ?_, fun hv he hr => ?_, fun hv he hs => ?_,
    fun hv he hs => ?_⟩
  · exact becomes _ ((PortIface.writeAttr_enable hv he).trans (if_neg (mt a.placementBad_iff.mp hr)))
  · exact becomes _ ((PortIface.writeAttr_enable hv he).trans (if_pos (a.placementBad_iff.mpr hr)))
  · exact becomes _ ((PortIface.writeAttr_keep hv he).trans (if_pos ((a.sameFlags_iff v).mpr hs)))
  · exact becomes _ ((PortIface.writeAttr_keep hv he).trans (if_neg (mt (a.sameFlags_iff v).mp hs)))

/-! ### The view decoder -/

theorem viewByte_toNat (a : BusAddr) : (viewByte a).toNat = 4 * a.toNat := by
  rw [viewByte, BitVec.toNat_append]
  simp [Nat.shiftLeft_eq, Nat.mul_comm]

theorem Aperture.covers_iff (a : Aperture) (addr : Nat) : a.covers addr = true ↔
    a.enabled = true ∧ a.viewPage.toNat * 256 ≤ addr ∧ addr < a.viewPage.toNat * 256 + 256 * 2 ^ a.sizeExp.toNat := by
  simp only [Aperture.covers, Bool.and_eq_true, decide_eq_true_eq, and_assoc]
  rfl

/-- No entry matches (R115). -/
theorem PortIface.matchEntry_eq_none {i : PortIface} {addr : Nat} (h : ∀ n, ¬ (i.aperture n).covers addr = true) :
    i.matchEntry addr = none := by
  refine List.find?_eq_none.mpr fun x hx => ?_
  obtain ⟨k, hk, rfl⟩ := List.getElem_of_mem hx
  exact h ⟨k, by simpa using hk⟩

/-- The lowest-numbered entry that matches is the one taken (R115). -/
theorem PortIface.matchEntry_eq_some {i : PortIface} {addr : Nat} {n : ApertureIx} (hn : (i.aperture n).covers addr = true)
    (hm : ∀ m, m < n → ¬ (i.aperture m).covers addr = true) : i.matchEntry addr = some (i.aperture n) := by
  refine List.find?_eq_some_iff_getElem.mpr ⟨hn, n.val, by simp, rfl, fun k hk => ?_⟩
  have hk : k < n.val := hk
  have := hm ⟨k, by omega⟩ hk
  simpa [PortIface.aperture] using this

section
variable {s : State} {p : Port} {dir : Direction} {a : BusAddr} {e : Aperture}

theorem State.decodeView_of_starting (h : s.part = .starting) : s.decodeView p dir a = .fails .notReady none := by
  simp [State.decodeView, h]

theorem State.decodeView_of_unmatched (h : s.part = .ready) (he : (s.port p).matchEntry (4 * a.toNat) = none) :
    s.decodeView p dir a = .fails .unmapped none := by simp [State.decodeView, h, viewByte_toNat, he]

/-- The entry's flag for an access in this direction (R117). -/
def Aperture.allows (e : Aperture) : Direction → Bool
  | .read => e.readOk
  | .write => e.writeOk

/-- The fault kind of an access whose entry's flag is clear (R117). -/
def Direction.noFlag : Direction → FaultKind
  | .read => .apertureNoRead
  | .write => .apertureNoWrite

/-- An access of a READY part through an entry: the store's bound, then the entry's flag (R116, R117). -/
theorem State.decodeView_of_match (h : s.part = .ready) (he : (s.port p).matchEntry (4 * a.toNat) = some e) :
    s.decodeView p dir a =
      if 0x20000 ≤ e.translate (4 * a.toNat) then .fails .beyondStore (some (BitVec.ofNat 18 (e.translate (4 * a.toNat))))
      else if e.allows dir then .passes (BitVec.ofNat 15 (e.translate (4 * a.toNat) / 4)) e.posted
      else .fails dir.noFlag (some (BitVec.ofNat 18 (e.translate (4 * a.toNat)))) := by
  dsimp only [State.decodeView]
  rw [viewByte_toNat, if_neg (by simp [h]), he]
  cases dir <;> rfl

end

/-- Settles O24. -/
theorem viewDecoded : Obligations.ViewDecoded := by
  intro s p dir a A hit
  have covers : ∀ n, ((s.port p).aperture n).covers A = true ↔ hit n := fun n => Aperture.covers_iff _ _
  refine ⟨State.decodeView_of_starting, fun hp hn => State.decodeView_of_unmatched hp
    (PortIface.matchEntry_eq_none fun n h => hn n ((covers n).mp h)), fun n hp hn hm => ?_⟩
  rw [State.decodeView_of_match hp
    (PortIface.matchEntry_eq_some ((covers n).mpr hn) fun m hlt h => hm m hlt ((covers m).mp h))]
  intro e T
  have inStore : T < 0x20000 → ¬ 0x20000 ≤ e.translate (4 * a.toNat) := Nat.not_le.mpr
  refine ⟨fun hT => if_pos hT, ?_, ?_, fun hT hf => (if_neg (inStore hT)).trans (if_pos ?_)⟩
  · rintro hT rfl hr
    exact (if_neg (inStore hT)).trans (if_neg (Bool.eq_false_iff.mp hr))
  · rintro hT rfl hw
    exact (if_neg (inStore hT)).trans (if_neg (Bool.eq_false_iff.mp hw))
  · obtain ⟨rfl, hr⟩ | ⟨rfl, hw⟩ := hf
    exacts [hr, hw]

end Sys2Proof.Machine
end

section
/-! SUPPORT. The obligations on view accesses (O25, O26): one that fails is one change of its port's interface, and one that
passes enters the write path. -/

namespace Sys2Proof.Machine

/-! ### The region of a fault record -/

theorem State.faultRegion_beyond {s : State} {b : BitVec 18} (h : 0x20000 ≤ b.toNat) : s.faultRegion (some b) = none := if_pos h

theorem State.faultRegion_iff {s : State} (hx : s.extentsLaw) {b : BitVec 18} (h : b.toNat < 0x20000) (r : RegionIx) :
    s.faultRegion (some b) = some r ↔ ∃ g, s.slot r = some g ∧ g.extent.hasPage (b.toNat / 256) = true := by
  have page : (BitVec.ofNat 15 (b.toNat / 4)).toNat / Config.wordsPerPage = b.toNat / 256 := by
    rw [BitVec.toNat_ofNat, Config.wordsPerPage]
    omega
  rw [State.faultRegion, if_neg (Nat.not_le.mpr h), State.regionOf, page]
  exact State.regionOfPage_iff hx _ r

/-! ### A view access taken -/

section
variable {s : State} {p : Port} {a : BusAddr} {be : Enables} {v : Word}

theorem exec_viewRead (ht : s.takes p) (ha : Config.viewStart ≤ a.toNat) :
    exec (.viewRead p a) s = .next (takeViewRead p a s) := hostAccess_of_takes (decide_eq_true ha) ht

theorem exec_viewWrite (ht : s.takes p) (ha : Config.viewStart ≤ a.toNat) :
    exec (.viewWrite p a be v) s = .next (takeViewWrite p a be v s) := hostAccess_of_takes (decide_eq_true ha) ht

end

/-- Settles O25. -/
theorem viewAccessFails : Obligations.ViewAccessFails := by
  refine ⟨fun s hx => ⟨rfl, fun b => ⟨State.faultRegion_beyond, State.faultRegion_iff hx⟩⟩, ?_⟩
  intro s p a be v k at_ ht ha record
  refine ⟨fun h => ?_, fun hbe h => ?_⟩
  · rw [exec_viewRead ht ha, ← State.failRead_eq]
    rcases h with hd | ⟨w, posted, hd, hc, rfl⟩
    · rw [takeViewRead, hd]
    · rw [takeViewRead, hd]
      dsimp only
      rw [hc]
  · rw [exec_viewWrite ht ha, ← State.failWrite_eq, takeViewWrite, if_neg hbe]
    rcases h with hd | ⟨w, posted, hd, hc, rfl, hq⟩
    · rw [hd]
    · rw [hd]
      cases posted with
      | false =>
        dsimp only [State.acceptBlocking]
        rw [hc]
      | true =>
        dsimp only [State.offerPosted, State.acceptPosted]
        have notFull : (s.port p).posted.length < Config.postedCapacity := hq rfl
        rw [if_pos notFull, hc]

/-- Settles O26. -/
theorem viewAccessAccepted : Obligations.ViewAccessAccepted := by
  intro s p a be v w ht ha
  refine ⟨fun posted hd hc => ?_, fun hbe => ?_, fun hbe hd hq hc => ?_, fun hbe hd hq => ?_, fun hbe hd hc => ?_⟩
  · rw [exec_viewRead ht ha, takeViewRead, hd]
    dsimp only
    rw [hc]
  · rw [exec_viewWrite ht ha, takeViewWrite, if_pos hbe]
    rfl
  · rw [exec_viewWrite ht ha, takeViewWrite, if_neg hbe, hd]
    dsimp only [State.offerPosted]
    have notFull : (s.port p).posted.length < Config.postedCapacity := hq
    rw [if_pos notFull, State.acceptPosted_eq, hc]
    rfl
  · rw [exec_viewWrite ht ha, takeViewWrite, if_neg hbe, hd]
    exact congrArg _ (if_neg (Nat.not_lt.mpr hq))
  · rw [exec_viewWrite ht ha, takeViewWrite, if_neg hbe, hd]
    dsimp only [State.acceptBlocking]
    rw [hc]

end Sys2Proof.Machine
end

section
/-! SUPPORT. The obligation on the store arbiter (O32): its choice is the first client of least effective priority among those
that wait, and a grant's effect on each client's priority. -/

namespace Sys2Proof.Machine

/-! ### The choice -/

/-- The number of a client (R137). -/
def Client.number : Client → Nat
  | .port p => p.bits.toNat
  | .engine => 4

/-- A client's effective priority, counted (R138). -/
def State.prio (s : State) (c : Client) : Nat := (s.effectivePrio.of c).toNat

@[simp] theorem mem_allClients (c : Client) : c ∈ allClients := by rcases c with (_ | _ | _ | _) | _ <;> decide

theorem allClients_ascending : allClients.Pairwise fun a b => a.number < b.number := by decide

/-- In a list of ascending clients places compare as numbers do. -/
theorem idxOf_le_iff_number_le {l : List Client} (hl : l.Pairwise fun a b => a.number < b.number) {a b : Client} (ha : a ∈ l)
    (hb : b ∈ l) : l.idxOf a ≤ l.idxOf b ↔ a.number ≤ b.number := by
  have lt : ∀ {x y : Client}, x ∈ l → y ∈ l → l.idxOf x < l.idxOf y → x.number < y.number := fun hx hy h => by
    simpa using List.pairwise_iff_getElem.mp hl _ _ (List.idxOf_lt_length_of_mem hx) (List.idxOf_lt_length_of_mem hy) h
  refine ⟨fun h => ?_, fun h => Nat.not_lt.mp fun hlt => Nat.not_lt.mpr h (lt hb ha hlt)⟩
  rcases Nat.lt_or_eq_of_le h with hlt | heq
  · exact (lt ha hb hlt).le
  · rw [(List.idxOf_inj ha).mp heq]

/-- The arbiter's choice is the first waiting client of least effective priority (R139). -/
theorem State.chosen_eq_argmin (s : State) : s.chosen = (allClients.filter s.waits).argmin s.prio := by
  have hbetter : s.better = List.argAux fun b c => s.prio b < s.prio c := by
    funext best c
    cases best with
    | none => rfl
    | some b => exact if_congr BitVec.lt_def rfl rfl
  rw [State.chosen, hbetter]
  rfl

/-- The choice is a waiting client that no waiting client precedes by priority and, on a tie, by number (R139). -/
theorem State.chosen_iff (s : State) (g : Client) : s.chosen = some g ↔
    s.waits g = true ∧
      ∀ c, s.waits c = true → s.prio g < s.prio c ∨ (s.prio g = s.prio c ∧ g.number ≤ c.number) := by
  have ascending := allClients_ascending.filter s.waits
  rw [State.chosen_eq_argmin, List.argmin_eq_some_iff]
  simp only [List.mem_filter, mem_allClients, true_and]
  refine and_congr_right fun hg => ⟨fun ⟨hmin, hfirst⟩ c hc => ?_, fun h => ⟨fun c hc => ?_, fun c hc hle => ?_⟩⟩
  · refine (hmin c hc).lt_or_eq.imp_right fun heq => ⟨heq, ?_⟩
    exact (idxOf_le_iff_number_le ascending (by simp [hg]) (by simp [hc])).mp (hfirst c hc heq.ge)
  · exact (h c hc).elim Nat.le_of_lt fun ⟨heq, _⟩ => heq.le
  · refine (idxOf_le_iff_number_le ascending (by simp [hg]) (by simp [hc])).mpr ?_
    exact (h c hc).elim (fun hlt => absurd hle (Nat.not_le.mpr hlt)) And.right

/-! ### The grant -/

/-- The arbiter gives the slot to the client it chooses (R139). -/
theorem State.exists_grantSlot_iff (s : State) (g : Client) : (∃ t, s.grantSlot g = some t) ↔ s.chosen = some g :=
  ⟨fun ⟨_, h⟩ => (State.grantSlot_some h).1, fun h => ⟨_, if_pos h⟩⟩

/-- After a grant every client's effective priority is its aged one (R139). -/
theorem State.effectivePrio_grantSlot {s t : State} {g : Client} (h : s.grantSlot g = some t) (c : Client) :
    t.effectivePrio.of c = s.aged g c := by
  obtain ⟨-, rfl⟩ := State.grantSlot_some h
  cases c with
  | port p => exact PerPort.get_ofFun _ p
  | engine => rfl

theorem State.aged_self (s : State) (g : Client) : s.aged g g = s.initialPrio.of g := if_pos rfl

theorem State.aged_of_not_waits {s : State} {g c : Client} (hc : c ≠ g) (h : s.waits c = false) :
    s.aged g c = s.effectivePrio.of c := by simp [State.aged, hc, h]

/-- A client passed over improves by one, down to 0 (R139). -/
theorem State.toNat_aged_of_waits {s : State} {g c : Client} (hc : c ≠ g) (h : s.waits c = true) :
    (s.aged g c).toNat = s.prio c - 1 := by
  simp only [State.aged, State.prio, if_neg hc, if_pos h]
  generalize s.effectivePrio.of c = e
  revert e
  decide

/-- Settles O32. -/
theorem arbiterGrants : Obligations.ArbiterGrants := by
  intro s g number waits prio
  have hnumber : number = Client.number := funext fun c => by cases c <;> rfl
  have hwaits : ∀ c, waits c ↔ s.waits c = true := fun c => by
    cases c <;> simp [waits, State.waits, Option.isSome_iff_ne_none]
  have hprio : prio = s.prio := rfl
  clear_value number waits prio
  subst hnumber hprio
  simp only [hwaits, Bool.not_eq_true]
  refine ⟨(s.exists_grantSlot_iff g).trans (s.chosen_iff g), fun t ht => ⟨?_, ?_, fun c hc hw => ?_, fun c hc hw => ?_⟩⟩
  · obtain ⟨-, rfl⟩ := State.grantSlot_some ht
    rfl
  · rw [State.effectivePrio_grantSlot ht, State.aged_self]
  · rw [State.effectivePrio_grantSlot ht, State.toNat_aged_of_waits hc hw]
  · rw [State.effectivePrio_grantSlot ht, State.aged_of_not_waits hc hw]

end Sys2Proof.Machine
end

section
/-! SUPPORT. The obligations on accesses that are not taken and on the held posted write (O4, O31). -/

namespace Sys2Proof.Machine

/-! ### An access that is not taken -/

/-- PnRDY is high while the bus is served and carries no held access (R132, R166, R171). -/
theorem State.ready_iff (s : State) (p : Port) : s.ready p = true ↔
    s.rstLow = false ∧ (s.port p).resetLow = false ∧ (s.port p).blocking = none ∧ (s.port p).held = none := by
  simp [State.ready, State.served, PortIface.not_busHeld_iff, and_assoc]

section
variable {s : State} {p : Port} {c : Instr} {take : State → State}

theorem hostAccess_of_illFormed (hc : c.wf = false) : hostAccess p c s take = .refused .illFormed := by
  simp [hostAccess, hc]

theorem hostAccess_of_busHeld (hc : c.wf = true) (hs : s.served p = true) (hb : (s.port p).busHeld = true) :
    hostAccess p c s take = .fault (.busHeld p) := by simp [hostAccess, hc, hs, hb]

/-- The reset completed this access: it is over (R166, R179). -/
theorem hostAccess_of_overtaken (hc : c.wf = true) (hs : s.served p = false) (ho : (s.port p).overtaken = some c) :
    hostAccess p c s take = .next (s.updPort p fun i => { i with overtaken := none }) := by
  simp [hostAccess, hc, hs, ho]

/-- A second access begun while the bus is not served: the first is still on it (R126). -/
theorem hostAccess_of_waiting (hc : c.wf = true) (hs : s.served p = false) (ho : (s.port p).overtaken ≠ some c)
    (hw : (s.port p).waiting.isSome = true) : hostAccess p c s take = .fault (.busHeld p) := by
  simp [hostAccess, hc, hs, ho, hw]

/-- An access begun while the bus is not served waits (R166, R171). -/
theorem hostAccess_of_unserved (hc : c.wf = true) (hs : s.served p = false) (ho : (s.port p).overtaken ≠ some c)
    (hw : (s.port p).waiting = none) :
    hostAccess p c s take = .next (s.updPort p fun i => { i with waiting := some c }) := by
  simp [hostAccess, hc, hs, ho, hw]

end

/-- Settles O4. -/
theorem hostAccessNotTaken : Obligations.HostAccessNotTaken := by
  refine ⟨State.ready_iff, fun s p b c hb => ?_⟩
  rw [exec_host_of_port (p := p) s (by rw [hb]; rfl)]
  exact ⟨hostAccess_of_illFormed, hostAccess_of_busHeld, hostAccess_of_overtaken,
    fun hc hs ho => ⟨hostAccess_of_waiting hc hs ho, hostAccess_of_unserved hc hs ho⟩⟩

/-! ### The held write -/

/-- Where a word lies and whether its access is permitted does not hang on a port's interface (R3, R124). -/
theorem State.regionOf_updPort (s : State) (p : Port) (f : PortIface → PortIface) (w : StoreAddr) :
    (s.updPort p f).regionOf w = s.regionOf w := rfl

theorem State.check_updPort (s : State) (p q : Port) (f : PortIface → PortIface) (dir : Direction) (w : StoreAddr) :
    (s.updPort p f).check q dir w = s.check q dir w := rfl

/-- The wrote flag and a port's interface are set apart from each other (R21). -/
theorem State.noteWrite_updPort (s : State) (p q : Port) (f : PortIface → PortIface) (w : StoreAddr) :
    (s.updPort p f).noteWrite q w = (s.noteWrite q w).updPort p f := by
  unfold State.noteWrite
  rw [State.regionOf_updPort]
  cases s.regionOf w <;> rfl

/-- While the queue is full the held write waits (R129). -/
theorem State.acceptHeld_of_full {s : State} {p : Port} (hq : 8 ≤ (s.port p).posted.length) : s.acceptHeld p = s := by
  unfold State.acceptHeld
  split
  · rfl
  · exact if_neg (Nat.not_lt.mpr hq)

/-- With a place free the held write leaves the bus and is offered as any posted write (R129). -/
theorem State.acceptHeld_of_room {s : State} {p : Port} {h : HeldWrite} (hh : (s.port p).held = some h)
    (hq : (s.port p).posted.length < 8) :
    s.acceptHeld p = (s.updPort p fun i => { i with held := none }).acceptPosted p h.viewAddr h.write := by
  rw [State.acceptHeld, hh]
  exact if_pos hq

/-- Settles O31. -/
theorem heldWriteTaken : Obligations.HeldWriteTaken := by
  intro s p h hh
  have taken : exec (.postedWriteAccept p) s = .next (s.acceptHeld p) := rfl
  refine ⟨fun hq => ?_, fun hq hc => ?_, fun k hq hc => ?_⟩
  · rw [taken, State.acceptHeld_of_full hq]
  · rw [taken, State.acceptHeld_of_room hh hq, State.acceptPosted_eq, State.check_updPort, hc]
    dsimp only
    rw [State.noteWrite_updPort, State.updPort_updPort]
    rfl
  · rw [taken, State.acceptHeld_of_room hh hq, State.acceptPosted_eq, State.check_updPort, hc]
    dsimp only
    rw [State.faultRegion_faultAddr, State.regionOf_updPort, State.updPort_updPort]
    rfl

end Sys2Proof.Machine
end

section
/-! SUPPORT. The notification queue of one port: the marker among its records, and what a device record, a MESSAGE and a POP
make of it; with the obligations on an offered record, on PnINT_n and on MESSAGE (O47, O48, O14). -/

namespace Sys2Proof.Machine

/-! ### The marker -/

theorem Record.isOverflow_iff (x : Record) : x.isOverflow = true ↔ ∃ n, x = .overflow n := by
  cases x <;> simp [Record.isOverflow]

/-- A queue holds no marker. -/
theorem any_isOverflow_eq_false {q : List Record} (h : ∀ n, Record.overflow n ∉ q) : q.any Record.isOverflow = false :=
  List.any_eq_false.mpr fun x hx ho =>
    let ⟨n, hn⟩ := x.isOverflow_iff.mp ho
    h n (hn ▸ hx)

/-- A loss counted in the marker, which stops at 65535 (R145). -/
theorem Record.countLoss_overflow (n : Half) :
    (Record.overflow n).countLoss = .overflow (if n = 65535#16 then 65535#16 else n + 1#16) := by
  by_cases h : n = 65535#16
  · subst h
    rfl
  · simp only [Record.countLoss, if_neg h]

/-- A loss is counted in the marker alone (R145). -/
theorem Record.countLoss_of_not_overflow {x : Record} (h : ¬ x.isOverflow = true) : x.countLoss = x := by
  cases x <;> first | rfl | exact absurd rfl h

theorem map_countLoss_of_no_marker {q : List Record} (h : q.filter Record.isOverflow = []) : q.map Record.countLoss = q := by
  have same : ∀ x ∈ q, x.countLoss = id x := fun x hx => Record.countLoss_of_not_overflow (List.filter_eq_nil_iff.mp h x hx)
  rw [List.map_congr_left same, List.map_id]

/-- A marker that is the only one stands between records that are none (R144). -/
theorem PortIface.notesLaw.no_other_marker {i : PortIface} {n : Half} {before after : List Record} (h : i.notesLaw)
    (hq : i.notes = before ++ .overflow n :: after) :
    before.filter Record.isOverflow = [] ∧ after.filter Record.isOverflow = [] := by
  obtain ⟨-, h1, -⟩ := h
  rw [hq, List.filter_append, List.filter_cons_of_pos rfl, List.length_append, List.length_cons] at h1
  constructor <;> exact List.length_eq_zero_iff.mp (by omega)

/-! ### An offered record -/

/-- A record offered to an ATTACHED port, by what the append rule makes of the queue as it stands (R144). -/
theorem State.offer_of_append {s : State} {p : Port} {x : Record} {q : List Record} (ha : (s.port p).state = .attached)
    (h : appendDevice (s.port p).notes x = q) : s.offer p x = s.updPort p fun i => { i with notes := q } := by
  rw [State.offer_of_attached x ha, State.updPort, h, State.updPort]

/-- Settles O47: the three cases of the append rule, with the one marker found among the records. -/
theorem deviceRecordOffered : Obligations.DeviceRecordOffered := by
  intro s p x hl q
  dsimp only [q]
  refine ⟨State.offer_of_detached x, fun ha => ⟨fun before n after hq => ?_, fun hn h14 => ?_, fun hn h15 => ?_⟩⟩
  · obtain ⟨hb, hafter⟩ := hl.no_other_marker hq
    have marked : (s.port p).notes.any Record.isOverflow = true := List.any_eq_true.mpr ⟨.overflow n, by simp [hq], rfl⟩
    refine State.offer_of_append ha ((appendDevice_marker x marked).trans ?_)
    rw [hq, List.map_append, List.map_cons, map_countLoss_of_no_marker hb, map_countLoss_of_no_marker hafter,
      Record.countLoss_overflow]
  · exact State.offer_of_append ha (appendDevice_room x (any_isOverflow_eq_false hn) h14)
  · exact State.offer_of_append ha (appendDevice_full x (any_isOverflow_eq_false hn) (by omega))

/-! ### PnINT_n -/

/-- A record drives the line if it is the marker, or if the mask enables its kind (R142, R153). -/
theorem PortIface.drives_iff (i : PortIface) (x : Record) : i.drives x = true ↔ (∃ n, x = .overflow n) ∨
      (i.kindMask.getLsbD 0 = true ∧ ∃ r m g t, x = .granted r m g t) ∨
      (i.kindMask.getLsbD 1 = true ∧ ∃ r h w, x = .revoked r h w) ∨
      (i.kindMask.getLsbD 2 = true ∧ ∃ r, x = .dropped r) ∨
      (i.kindMask.getLsbD 3 = true ∧ ∃ r t, x = .leaseWarning r t) ∨
      (i.kindMask.getLsbD 4 = true ∧ ∃ r g v, x = .digestDone r g v) ∨
      (i.kindMask.getLsbD 5 = true ∧ ∃ r g, x = .wipeDone r g) ∨
      (i.kindMask.getLsbD 6 = true ∧ ∃ k, x = .fault k) ∨
      (i.kindMask.getLsbD 7 = true ∧ ∃ q v, x = .message q v) := by
  cases x <;> simp [PortIface.drives, Record.isOverflow, Record.kind]

/-- Settles O48: the line is low while some record in the queue drives it. -/
theorem interruptFollowsQueue : Obligations.InterruptFollowsQueue := fun i =>
  List.any_eq_true.trans (exists_congr fun x => and_congr_right fun _ => i.drives_iff x)

/-! ### MESSAGE -/

/-- The command word and a change of an interface that does not touch CMD are set apart from each other. -/
theorem State.updPort_launched (s : State) (p q : Port) (w : Word) {f : PortIface → PortIface}
    (h : ∀ i : PortIface, f { i with cmd := w } = { f i with cmd := w }) :
    (s.launched p w).updPort q f = (s.updPort q f).launched p w := by
  by_cases hq : p = q
  · subst hq
    simp only [State.launched, State.updPort_updPort, h]
  · exact State.updPort_comm s hq _ f

@[simp] theorem State.launched_port_notes (s : State) (p q : Port) (w : Word) :
    ((s.launched p w).port q).notes = (s.port q).notes := by
  rw [State.launched_port]
  split
  · next h => rw [h]
  · rfl

/-- MESSAGE's decision on an ATTACHED port of a READY part: the target's state and queue are as the command found them, the
issuing port itself among the targets (R154). -/
theorem decideMessage_launched {s : State} {p : Port} (hs : s.part = .ready) (ha : (s.port p).state = .attached)
    (c : CmdFields) (w : Word) : decideMessage p c (s.launched p w) =
      if (s.port c.target).state = .detached then refuse (s.launched p w) .noTarget
      else if 15 ≤ (s.port c.target).notes.length then refuse (s.launched p w) .targetFull
      else ((s.updPort c.target fun i => { i with notes := i.notes ++ [.message p (s.port p).carg0] }).launched p w,
        .done, 0#32) := by
  rw [decideMessage, State.whenAttached_pass (s := s.launched p w) hs ((s.launched_port_state p p w).trans ha),
    State.launched_port_state, State.launched_port_notes, (s.launched_cargs p w).1, State.updPort_launched _ _ _ _ fun _ => rfl]
  rfl

/-- Settles O14: the branches of the decision in their order. -/
theorem messageDecided : Obligations.MessageDecided := by
  intro s p c ⟨ht, hs, ha⟩
  have decided := decideMessage_launched hs ha c (c.word 0x20#8)
  have h := launches_message p c
  refine ⟨fun hd => h.refused ht (x := .noTarget) ?_, fun hd hn => h.refused ht (x := .targetFull) ?_,
    fun hd hn => h.answers ht (x := .done) ?_⟩
  · rw [decided, if_pos hd]
  · rw [decided, if_neg (by simp [hd]), if_pos hn]
  · rw [decided, if_neg (by simp [hd]), if_neg (by omega)]

end Sys2Proof.Machine
end

section
/-! SUPPORT. The law of the notification queues, kept by the operations of the lock engine: each leaves the queues or offers
device records, whose append rule keeps the law (R141, R144). -/

namespace Sys2Proof.Machine

/-! ### The law at one queue -/

section
variable {i j : PortIface}

theorem PortIface.notesLaw.congr (h : i.notesLaw) (hn : j.notes = i.notes) : j.notesLaw := by
  rw [PortIface.notesLaw, hn]
  exact h

/-- A queue of at most 15 records needs no marker (R144). -/
theorem PortIface.notesLaw_of_short (hl : i.notes.length ≤ 15) (h1 : (i.notes.filter Record.isOverflow).length ≤ 1) :
    i.notesLaw := ⟨by omega, h1, fun h => by omega⟩

/-- A queue that a reset has emptied (R165). -/
theorem PortIface.notesLaw_of_nil (h : i.notes = []) : i.notesLaw := by
  apply PortIface.notesLaw_of_short <;> simp [h]

/-- A MESSAGE joins a queue of at most 14 records, and is no marker (R154). -/
theorem PortIface.notesLaw.message (h : i.notesLaw) (hl : i.notes.length < Config.messageLimit) (q : Port) (v : Word) :
    ({ i with notes := i.notes ++ [.message q v] } : PortIface).notesLaw := by
  obtain ⟨-, h1, -⟩ := h
  refine PortIface.notesLaw_of_short ?_ ?_
  · rw [List.length_append]
    exact hl
  · rw [List.filter_append]
    exact (congrArg _ (List.append_nil _)).trans_le h1

/-- A POP leaves at most 15 records (R149). -/
theorem PortIface.notesLaw.pop (h : i.notesLaw) : i.pop.notesLaw := by
  cases hn : i.notes with
  | nil => rw [PortIface.pop_of_nil hn]; exact h.congr rfl
  | cons x rest =>
    obtain ⟨h16, h1, -⟩ := h
    rw [hn] at h16 h1
    rw [PortIface.pop_of_cons hn]
    exact PortIface.notesLaw_of_short (Nat.le_of_succ_le_succ h16)
      (((List.sublist_cons_self x rest).filter _).length_le.trans h1)

end

/-! ### The law at every queue -/

/-- A port whose queue keeps its law in `s` has one that keeps it in `t`. -/
def State.KeepsNotes (s t : State) : Prop := ∀ p, (s.port p).notesLaw → (t.port p).notesLaw

variable {s t u : State} {p : Port} {r : RegionIx}

theorem State.KeepsNotes.refl (s : State) : s.KeepsNotes s := fun _ => id

theorem State.KeepsNotes.trans (h : s.KeepsNotes t) (k : t.KeepsNotes u) : s.KeepsNotes u := fun p o => k p (h p o)

/-- A change beside the ports. -/
theorem State.keepsNotes_of_ports (h : ∀ q, t.port q = s.port q) : s.KeepsNotes t := fun q => by
  rw [h q]
  exact id

/-- A change of one port's interface. -/
theorem State.keepsNotes_updPort (s : State) (p : Port) {f : PortIface → PortIface}
    (h : (s.port p).notesLaw → (f (s.port p)).notesLaw) : s.KeepsNotes (s.updPort p f) := fun q hq => by
  rw [State.port_updPort]
  split
  · next e => exact h (e ▸ hq)
  · exact hq

/-- A change of one port's interface that leaves its queue. -/
theorem State.keepsNotes_updPort_of_same (s : State) (p : Port) {f : PortIface → PortIface}
    (h : (f (s.port p)).notes = (s.port p).notes) : s.KeepsNotes (s.updPort p f) :=
  s.keepsNotes_updPort p fun o => o.congr h

theorem State.keepsNotes_complete (s : State) (p : Port) (b : BusResult) : s.KeepsNotes (s.complete p b) :=
  s.keepsNotes_updPort_of_same p rfl

theorem State.keepsNotes_foldl {α : Type} {f : State → α → State} (hf : ∀ (s : State) (a : α), s.KeepsNotes (f s a))
    (l : List α) (s : State) : s.KeepsNotes (l.foldl f s) :=
  State.foldl_keeps (P := s.KeepsNotes) (fun u a h => h.trans (hf u a)) l (State.KeepsNotes.refl s)

/-- A record offered by the device, which is none of its markers (R144). -/
theorem State.keepsNotes_offer (s : State) (p : Port) {x : Record} (hx : x.isOverflow = false) : s.KeepsNotes (s.offer p x) := by
  cases hs : (s.port p).state with
  | detached => rw [State.offer_of_detached x hs]; exact State.KeepsNotes.refl s
  | attached =>
    rw [State.offer_of_attached x hs]
    exact s.keepsNotes_updPort p fun ⟨h16, h1, h⟩ => appendDevice_law hx h16 h1 h

/-! ### Operations on one region -/

theorem State.keepsNotes_setSlot (s : State) (r : RegionIx) (x : Option Region) : s.KeepsNotes (s.setSlot r x) :=
  State.keepsNotes_of_ports fun _ => rfl

theorem State.keepsNotes_sendFence (s : State) (r : RegionIx) (q : Port) : s.KeepsNotes (s.sendFence r q) :=
  State.keepsNotes_of_ports fun _ => rfl

theorem State.keepsNotes_queueJob (s : State) (r : RegionIx) (k : JobKind) (q : Option Port) : s.KeepsNotes (s.queueJob r k q) :=
  State.keepsNotes_of_ports (s.port_queueJob r k q)

theorem State.keepsNotes_grantPass (s : State) (r : RegionIx) : s.KeepsNotes (s.grantPass r) := by
  unfold State.grantPass
  split
  · exact State.KeepsNotes.refl s
  · exact (s.keepsNotes_setSlot r _).trans (State.keepsNotes_foldl (fun u e => u.keepsNotes_offer (WaitEntry.port e) rfl) _ _)

theorem State.keepsNotes_settle (s : State) (r : RegionIx) (g : Region) (e : EndedHold) : s.KeepsNotes (s.settle r g e) := by
  refine State.KeepsNotes.trans ?_ (State.keepsNotes_grantPass _ r)
  unfold State.autoDigest
  split
  · exact (s.keepsNotes_setSlot r _).trans (State.keepsNotes_queueJob _ r _ _)
  · exact s.keepsNotes_setSlot r _

theorem State.keepsNotes_startWipe (s : State) (r : RegionIx) (g : Region) (q : Port) : s.KeepsNotes (s.startWipe r g q) :=
  (s.keepsNotes_setSlot r _).trans (State.keepsNotes_queueJob _ r _ _)

theorem State.keepsNotes_endDrain (s : State) (r : RegionIx) (g : Region) (d : Drain) : s.KeepsNotes (s.endDrain r g d) := by
  unfold State.endDrain
  split
  · exact s.keepsNotes_settle r g _
  · exact (s.keepsNotes_setSlot r _).trans (State.keepsNotes_grantPass _ r)
  · exact s.keepsNotes_startWipe r g _
  · exact s.keepsNotes_startWipe r g _

theorem State.keepsNotes_decideDrain (s : State) (r : RegionIx) : s.KeepsNotes (s.decideDrain r) := by
  rcases s.decideDrain_cases r with h | ⟨g, d, -, -, -, h⟩ <;> rw [h]
  · exact State.KeepsNotes.refl s
  · exact s.keepsNotes_endDrain r g d

theorem State.keepsNotes_endHold (s : State) (r : RegionIx) (p : Port) (revoked : Bool) :
    s.KeepsNotes (s.endHold r p revoked) := by
  rcases s.endHold_cases r p revoked with h | ⟨g, x, -, -, -, h⟩ | ⟨g, x, -, -, -, h⟩ <;> rw [h]
  · exact State.KeepsNotes.refl s
  · exact s.keepsNotes_setSlot r _
  · exact (s.keepsNotes_setSlot r _).trans (State.keepsNotes_sendFence _ r p)

theorem State.keepsNotes_leaveRegion (s : State) (p : Port) (r : RegionIx) : s.KeepsNotes (s.leaveRegion p r) := by
  rcases s.leaveRegion_cases p r with ⟨h, -⟩ | ⟨g, -, -, h⟩ | ⟨g, -, -, h⟩ <;> rw [h]
  · exact State.KeepsNotes.refl s
  · exact (s.keepsNotes_endHold r p false).trans (State.keepsNotes_grantPass _ r)
  · exact (s.keepsNotes_setSlot r _).trans (State.keepsNotes_grantPass _ r)

theorem State.keepsNotes_cutRegion (s : State) (p : Port) (r : RegionIx) : s.KeepsNotes (s.cutRegion p r) := by
  have passed : ∀ x, s.KeepsNotes ((s.setSlot r x).grantPass r) := fun x =>
    (s.keepsNotes_setSlot r x).trans (State.keepsNotes_grantPass _ r)
  unfold State.cutRegion
  split
  · exact State.KeepsNotes.refl s
  · split
    · split
      · exact passed _
      · exact (s.keepsNotes_setSlot r _).trans (State.keepsNotes_decideDrain _ r)
    · split
      · exact passed _
      · exact State.KeepsNotes.refl s

/-! ### The tick -/

theorem State.keepsNotes_tickHold (s : State) (r : RegionIx) (p : Port) : s.KeepsNotes (s.tickHold r p) := by
  unfold State.tickHold
  split
  · exact State.KeepsNotes.refl s
  · split
    · exact State.KeepsNotes.refl s
    · split
      · exact (s.keepsNotes_setSlot r _).trans (State.keepsNotes_offer _ p rfl)
      · exact s.keepsNotes_setSlot r _

theorem State.keepsNotes_expireHold (s : State) (r : RegionIx) (p : Port) : s.KeepsNotes (s.expireHold r p) := by
  unfold State.expireHold
  split
  · exact State.KeepsNotes.refl s
  · split
    · exact State.KeepsNotes.refl s
    · split
      · exact (s.keepsNotes_offer p rfl).trans (State.keepsNotes_endHold _ r p true)
      · exact State.KeepsNotes.refl s

theorem State.keepsNotes_expireRegion (s : State) (r : RegionIx) : s.KeepsNotes (s.expireRegion r) := by
  unfold State.expireRegion
  split
  · exact State.KeepsNotes.refl s
  · split
    · exact (State.keepsNotes_foldl (fun u p => u.keepsNotes_expireHold r p) _ s).trans (State.keepsNotes_grantPass _ r)
    · exact State.KeepsNotes.refl s

theorem State.keepsNotes_tickRegion (s : State) (r : RegionIx) : s.KeepsNotes (s.tickRegion r) :=
  (State.keepsNotes_foldl (fun u p => u.keepsNotes_tickHold r p) _ s).trans (State.keepsNotes_expireRegion _ r)

theorem State.keepsNotes_takeTick (s : State) : s.KeepsNotes s.takeTick :=
  State.keepsNotes_foldl State.keepsNotes_tickRegion allRegions { s with divider := 0 }

/-! ### RECLAIM and resets -/

theorem State.keepsNotes_reclaimRecords (s : State) (r : RegionIx) (g : Region) : s.KeepsNotes (s.reclaimRecords r g) := by
  refine State.KeepsNotes.trans (State.keepsNotes_foldl (fun u q => ?_) allPorts s)
    (State.keepsNotes_foldl (fun u e => u.keepsNotes_offer (WaitEntry.port e) rfl) g.queue _)
  unfold State.revokeHolder
  split
  · exact State.KeepsNotes.refl u
  · exact u.keepsNotes_offer q rfl

theorem State.keepsNotes_fenceIf (s : State) (r : RegionIx) (a : PerPort Bool) (q : Port) : s.KeepsNotes (s.fenceIf r a q) := by
  unfold State.fenceIf
  split
  · exact s.keepsNotes_sendFence r q
  · exact State.KeepsNotes.refl s

/-- A port reset empties the port's queue, and the others are offered what its holds and waits leave (R165). -/
theorem State.keepsNotes_resetPort (s : State) (p : Port) (o : Option Instr) : s.KeepsNotes (s.resetPort p o) :=
  ((State.keepsNotes_of_ports fun _ => rfl : s.KeepsNotes (s.reportMarks p)).trans
    (State.keepsNotes_updPort _ p (f := fun i => i.restored o) fun _ => PortIface.notesLaw_of_nil rfl)).trans
    (State.keepsNotes_foldl (fun u r => u.keepsNotes_cutRegion p r) allRegions _)

end Sys2Proof.Machine
end

section
/-! SUPPORT. The law of the notification queues, kept by every access of a host: MESSAGE joins a queue with room, a POP shortens
one, a failed view access offers a FAULT record, and the rest is the lock engine's (R149, R154, R156). -/

namespace Sys2Proof.Machine

variable {s t : State} {p : Port}

/-! ### Decisions -/

theorem State.KeepsNotes.ite {c : Prop} [Decidable c] {d e : Decision} (hd : s.KeepsNotes d.1) (he : s.KeepsNotes e.1) :
    s.KeepsNotes (if c then d else e).1 := by
  split
  · exact hd
  · exact he

/-- A command refused on a condition (R12, R25). -/
theorem State.KeepsNotes.unless {c : Prop} [Decidable c] {x : Result} {d : Decision} (hd : s.KeepsNotes d.1) :
    s.KeepsNotes (if c then refuse s x else d).1 := .ite (State.KeepsNotes.refl s) hd

/-- A command refused but on a condition (R12, R25). -/
theorem State.KeepsNotes.provided {c : Prop} [Decidable c] {x : Result} {d : Decision} (hd : s.KeepsNotes d.1) :
    s.KeepsNotes (if c then d else refuse s x).1 := .ite hd (State.KeepsNotes.refl s)

theorem State.keepsNotes_whenAttached {k : Decision} (h : s.KeepsNotes k.1) : s.KeepsNotes (s.whenAttached p k).1 :=
  .unless (.unless h)

theorem State.keepsNotes_onRegion {r : RegionIx} {k : Region → Decision} (h : ∀ g, s.KeepsNotes (k g).1) :
    s.KeepsNotes (s.onRegion p r k).1 := by
  refine State.keepsNotes_whenAttached ?_
  split
  · exact State.KeepsNotes.refl s
  · exact h _

theorem State.keepsNotes_asSupervisor {k : Decision} (h : s.KeepsNotes k.1) : s.KeepsNotes (s.asSupervisor p k).1 :=
  State.keepsNotes_whenAttached (.provided h)

/-- A command word is its decision between two changes of its port's window (R175). -/
theorem State.keepsNotes_launch {word : Word} {decide : State → Decision} (h : ∀ s : State, s.KeepsNotes (decide s).1) :
    s.KeepsNotes (launch p word decide s) := by
  rw [launch_eq]
  exact ((s.keepsNotes_updPort_of_same p (f := fun i => { i with cmd := word }) rfl).trans (h (s.launched p word))).trans
    (State.keepsNotes_updPort_of_same _ p (f := fun i => { i with cres := _, cresv := _, bus := .wrote }) rfl)

theorem keepsNotes_decideAttach (c : CmdFields) (s : State) : s.KeepsNotes (decideAttach p c s).1 :=
  .unless (.unless (s.keepsNotes_updPort_of_same p (f := fun i => { i with state := .attached }) rfl))

theorem keepsNotes_decideDetach (c : CmdFields) (s : State) : s.KeepsNotes (decideDetach p c s).1 :=
  State.keepsNotes_whenAttached ((State.keepsNotes_foldl (fun u r => u.keepsNotes_leaveRegion p r) allRegions s).trans
    (State.keepsNotes_updPort_of_same _ p (f := fun i => { i with state := .detached }) rfl))

theorem keepsNotes_decideAcquire (c : CmdFields) (s : State) : s.KeepsNotes (decideAcquire p c s).1 :=
  State.keepsNotes_onRegion fun _ => .unless (.unless (.unless (.unless
    (.ite (s.keepsNotes_setSlot _ _) (.provided (s.keepsNotes_setSlot _ _))))))

theorem keepsNotes_decideCancel (c : CmdFields) (s : State) : s.KeepsNotes (decideCancel p c s).1 :=
  State.keepsNotes_onRegion fun _ => .provided ((s.keepsNotes_setSlot _ _).trans (State.keepsNotes_grantPass _ _))

theorem keepsNotes_decideRelease (c : CmdFields) (s : State) : s.KeepsNotes (decideRelease p c s).1 :=
  State.keepsNotes_onRegion fun _ => .provided ((s.keepsNotes_endHold _ p false).trans (State.keepsNotes_grantPass _ _))

theorem keepsNotes_decideRenew (c : CmdFields) (s : State) : s.KeepsNotes (decideRenew p c s).1 := by
  refine State.keepsNotes_onRegion fun g => ?_
  split
  · exact State.KeepsNotes.refl s
  · exact .unless (s.keepsNotes_setSlot _ _)

theorem keepsNotes_decideMakePrivate (c : CmdFields) (s : State) : s.KeepsNotes (decideMakePrivate p c s).1 :=
  State.keepsNotes_onRegion fun _ => .unless (.unless (.unless (s.keepsNotes_setSlot _ _)))

theorem keepsNotes_decideRelinquish (c : CmdFields) (s : State) : s.KeepsNotes (decideRelinquish p c s).1 :=
  State.keepsNotes_onRegion fun _ => .provided ((s.keepsNotes_setSlot _ _).trans (State.keepsNotes_sendFence _ _ p))

theorem keepsNotes_decideDigest (c : CmdFields) (s : State) : s.KeepsNotes (decideDigest p c s).1 :=
  State.keepsNotes_onRegion fun _ => .unless (.unless (s.keepsNotes_queueJob _ _ _))

/-- A MESSAGE that its target's queue has no room for is refused (R154). -/
theorem keepsNotes_decideMessage (c : CmdFields) (s : State) : s.KeepsNotes (decideMessage p c s).1 := by
  refine State.keepsNotes_whenAttached (.unless ?_)
  split
  · exact State.KeepsNotes.refl s
  · next hn =>
    exact s.keepsNotes_updPort c.target (f := fun i => { i with notes := i.notes ++ [.message p (s.port p).carg0] })
      fun o => o.message (Nat.not_le.mp hn) p _

theorem keepsNotes_decideDefine (c : CmdFields) (s : State) : s.KeepsNotes (decideDefine p c s).1 :=
  State.keepsNotes_asSupervisor (.unless (.unless (.unless ((s.keepsNotes_setSlot c.region _).trans
    (State.keepsNotes_foldl (fun u q => u.keepsNotes_sendFence c.region q) allPorts _)))))

theorem keepsNotes_decideModify (c : CmdFields) (s : State) : s.KeepsNotes (decideModify p c s).1 := by
  refine State.keepsNotes_asSupervisor ?_
  split
  · exact State.KeepsNotes.refl s
  · exact .provided (s.keepsNotes_setSlot _ _)

theorem keepsNotes_decideDelete (c : CmdFields) (s : State) : s.KeepsNotes (decideDelete p c s).1 := by
  refine State.keepsNotes_asSupervisor ?_
  split
  · exact State.KeepsNotes.refl s
  · exact .provided (s.keepsNotes_setSlot _ _)

theorem keepsNotes_decideReclaim (c : CmdFields) (s : State) : s.KeepsNotes (decideReclaim p c s).1 := by
  refine State.keepsNotes_asSupervisor ?_
  split
  · exact State.KeepsNotes.refl s
  · next g _ =>
    have reclaimed : ∀ a, s.KeepsNotes ((s.reclaimRecords c.region g).setSlot c.region (some (g.reclaimed p a))) := fun a =>
      (s.keepsNotes_reclaimRecords c.region g).trans (State.keepsNotes_setSlot _ _ _)
    have idle : s.KeepsNotes (s.reclaimIdle c.region g p) := (reclaimed _).trans (State.keepsNotes_decideDrain _ _)
    split
    · exact idle
    · exact idle
    · exact (reclaimed _).trans
        (State.keepsNotes_foldl (fun u q => u.keepsNotes_fenceIf c.region g.holderSet q) allPorts _)
    · next q _ =>
      exact ((s.keepsNotes_offer q rfl).trans (State.keepsNotes_setSlot _ _ _)).trans (State.keepsNotes_sendFence _ _ q)
    · next d _ =>
      split
      · exact reclaimed d.awaited
      · exact reclaimed d.awaited
      · exact State.KeepsNotes.refl s
      · exact State.KeepsNotes.refl s
    · exact State.KeepsNotes.refl s

theorem keepsNotes_decideEvict (c : CmdFields) (s : State) : s.KeepsNotes (decideEvict p c s).1 := by
  have reset := s.keepsNotes_resetPort c.target none
  unfold decideEvict
  generalize s.resetPort c.target none = u at reset ⊢
  exact State.keepsNotes_asSupervisor (.unless reset)

/-! ### The register window -/

theorem PortIface.notes_placeAperture (i : PortIface) (n : ApertureIx) (f : Placement) (v : Word) :
    (i.placeAperture n f v).notes = i.notes := by unfold PortIface.placeAperture; split <;> rfl

theorem PortIface.notes_writeAttr (i : PortIface) (n : ApertureIx) (v : Word) : (i.writeAttr n v).notes = i.notes := by
  unfold PortIface.writeAttr
  dsimp only
  split
  · rfl
  · split <;> rfl
  · rfl
  · split <;> rfl

theorem PortIface.notes_writeWindow (i : PortIface) (off : BitVec 8) (be : Enables) (v : Word) :
    (i.writeWindow off be v).notes = i.notes := by
  unfold PortIface.writeWindow
  repeat' split
  all_goals rfl

theorem State.keepsNotes_windowEffect (s : State) (p : Port) {f : PortIface → PortIface} (h : ∀ i, (f i).notes = i.notes) :
    s.KeepsNotes (windowEffect p f s) := s.keepsNotes_updPort_of_same p (h _)

theorem keepsNotes_takeNpop (p : Port) (v : Word) (s : State) : s.KeepsNotes (takeNpop p v s) :=
  s.keepsNotes_updPort p fun o => o.pop.congr rfl

theorem keepsNotes_takeSarb (p : Port) (v : Word) (s : State) : s.KeepsNotes (takeSarb p v s) := by
  by_cases h : s.supervisor = some p
  · rw [takeSarb_of_supervisor h]
    exact s.keepsNotes_complete p .wrote
  · rw [takeSarb_of_ne h]
    exact s.keepsNotes_complete p .wrote

/-! ### View accesses -/

/-- The first failure since the record was cleared offers a FAULT record, and later ones are counted (R156, R157). -/
theorem State.keepsNotes_recordFault (s : State) (p : Port) (k : FaultKind) (dir : Direction) (va : Half)
    (w : Option (BitVec 18)) : s.KeepsNotes (s.recordFault p k dir va w) := by
  unfold State.recordFault
  split
  · exact s.keepsNotes_updPort_of_same p rfl
  · exact (s.keepsNotes_updPort_of_same p rfl).trans (State.keepsNotes_offer _ p rfl)

theorem State.keepsNotes_failRead (s : State) (p : Port) (k : FaultKind) (a : BusAddr) (w : Option (BitVec 18)) :
    s.KeepsNotes (s.failRead p k a w) := (s.keepsNotes_recordFault p k _ _ w).trans (State.keepsNotes_complete _ p _)

theorem State.keepsNotes_failWrite (s : State) (p : Port) (k : FaultKind) (a : Half) (w : Option (BitVec 18)) :
    s.KeepsNotes (s.failWrite p k a w) := (s.keepsNotes_recordFault p k _ _ w).trans (State.keepsNotes_complete _ p _)

theorem State.keepsNotes_noteWrite (s : State) (p : Port) (w : StoreAddr) : s.KeepsNotes (s.noteWrite p w) :=
  State.keepsNotes_of_ports fun q => s.port_noteWrite p q w

theorem State.keepsNotes_acceptPosted (s : State) (p : Port) (va : Half) (w : StoreWrite) :
    s.KeepsNotes (s.acceptPosted p va w) := by
  unfold State.acceptPosted
  split
  · exact s.keepsNotes_failWrite p _ va _
  · exact ((s.keepsNotes_noteWrite p w.addr).trans (State.keepsNotes_updPort_of_same _ p rfl)).trans
      (State.keepsNotes_complete _ p _)

theorem State.keepsNotes_acceptBlocking (s : State) (p : Port) (va : Half) (w : StoreWrite) :
    s.KeepsNotes (s.acceptBlocking p va w) := by
  unfold State.acceptBlocking
  split
  · exact s.keepsNotes_failWrite p _ va _
  · exact (s.keepsNotes_noteWrite p w.addr).trans (State.keepsNotes_updPort_of_same _ p rfl)

theorem State.keepsNotes_offerPosted (s : State) (p : Port) (va : Half) (w : StoreWrite) :
    s.KeepsNotes (s.offerPosted p va w) := by
  unfold State.offerPosted
  split
  · exact s.keepsNotes_acceptPosted p va w
  · exact s.keepsNotes_updPort_of_same p rfl

theorem State.keepsNotes_acceptHeld (s : State) (p : Port) : s.KeepsNotes (s.acceptHeld p) := by
  unfold State.acceptHeld
  split
  · exact State.KeepsNotes.refl s
  · split
    · exact (s.keepsNotes_updPort_of_same p rfl).trans (State.keepsNotes_acceptPosted _ p _ _)
    · exact State.KeepsNotes.refl s

theorem keepsNotes_takeViewRead (p : Port) (a : BusAddr) (s : State) : s.KeepsNotes (takeViewRead p a s) := by
  unfold takeViewRead
  split
  · exact s.keepsNotes_failRead p _ a _
  · split
    · exact s.keepsNotes_failRead p _ a _
    · exact s.keepsNotes_updPort_of_same p rfl

theorem keepsNotes_takeViewWrite (p : Port) (a : BusAddr) (be : Enables) (v : Word) (s : State) :
    s.KeepsNotes (takeViewWrite p a be v s) := by
  unfold takeViewWrite
  split
  · exact s.keepsNotes_complete p .wrote
  · split
    · exact s.keepsNotes_failWrite p _ _ _
    · exact s.keepsNotes_offerPosted p _ _
    · exact s.keepsNotes_acceptBlocking p _ _

/-! ### Every access -/

/-- Every access that an interface takes. -/
theorem keepsNotes_takeAccess (c : Instr) (s : State) : s.KeepsNotes (takeAccess c s) := by
  cases c with
  | attach p c => exact State.keepsNotes_launch (keepsNotes_decideAttach c)
  | detach p c => exact State.keepsNotes_launch (keepsNotes_decideDetach c)
  | acquire p c => exact State.keepsNotes_launch (keepsNotes_decideAcquire c)
  | cancel p c => exact State.keepsNotes_launch (keepsNotes_decideCancel c)
  | release p c => exact State.keepsNotes_launch (keepsNotes_decideRelease c)
  | renew p c => exact State.keepsNotes_launch (keepsNotes_decideRenew c)
  | makePrivate p c => exact State.keepsNotes_launch (keepsNotes_decideMakePrivate c)
  | relinquish p c => exact State.keepsNotes_launch (keepsNotes_decideRelinquish c)
  | digest p c => exact State.keepsNotes_launch (keepsNotes_decideDigest c)
  | message p c => exact State.keepsNotes_launch (keepsNotes_decideMessage c)
  | define p c => exact State.keepsNotes_launch (keepsNotes_decideDefine c)
  | modify p c => exact State.keepsNotes_launch (keepsNotes_decideModify c)
  | delete p c => exact State.keepsNotes_launch (keepsNotes_decideDelete c)
  | reclaim p c => exact State.keepsNotes_launch (keepsNotes_decideReclaim c)
  | evict p c => exact State.keepsNotes_launch (keepsNotes_decideEvict c)
  | npop p v => exact keepsNotes_takeNpop p v s
  | sarb p v => exact keepsNotes_takeSarb p v s
  | aperturePlacementWrite p n f v => exact s.keepsNotes_windowEffect p fun i => i.notes_placeAperture n f v
  | attrWrite p n v => exact s.keepsNotes_windowEffect p fun i => i.notes_writeAttr n v
  | windowWrite p off be v => exact s.keepsNotes_windowEffect p fun i => i.notes_writeWindow off be v
  | badCommand p w => exact s.keepsNotes_windowEffect p fun _ => rfl
  | fclr p v => exact s.keepsNotes_windowEffect p fun _ => rfl
  | nmask p v => exact s.keepsNotes_windowEffect p fun _ => rfl
  | lwarn p v => exact s.keepsNotes_windowEffect p fun _ => rfl
  | fill p v => exact s.keepsNotes_windowEffect p fun _ => rfl
  | pstatRead p => exact s.keepsNotes_updPort_of_same p rfl
  | viewRead p a => exact keepsNotes_takeViewRead p a s
  | viewWrite p a be v => exact keepsNotes_takeViewWrite p a be v s
  | _ => exact State.KeepsNotes.refl s

/-- Every command a host gives through its bus: taken, waiting for service, or overtaken by a reset (R126, R166). -/
theorem keepsNotes_exec_host {c : Instr} (hc : (encodeBus c).isSome = true) (h : exec c s = .next t) : s.KeepsNotes t := by
  obtain ⟨p, hp⟩ := exec_host s hc
  rw [hp] at h
  obtain ⟨-, ⟨-, rfl⟩ | ⟨-, ⟨-, rfl⟩ | ⟨-, rfl⟩⟩⟩ := hostAccess_next h
  · exact keepsNotes_takeAccess c s
  · exact s.keepsNotes_updPort_of_same p rfl
  · exact s.keepsNotes_updPort_of_same p rfl

end Sys2Proof.Machine
end

section
/-! SUPPORT. The law of the notification queues, kept by every step (O51): the events of the device offer device records,
empty the queues of ports that are reset, or leave them alone. -/

namespace Sys2Proof.Machine

section
variable {s t : State} {p : Port} {r : RegionIx}

/-! ### The store's slots and the fences -/

theorem State.keepsNotes_grantSlot {c : Client} (h : s.grantSlot c = some t) : s.KeepsNotes t := by
  obtain ⟨-, rfl⟩ := State.grantSlot_some h
  exact State.keepsNotes_of_ports fun _ => rfl

theorem State.keepsNotes_inSlot {c : Client} {k : State → State} (h : ∀ u : State, u.KeepsNotes (k u)) :
    s.KeepsNotes (s.inSlot c k) := by
  rcases s.inSlot_cases c k with hk | ⟨u, hu, hk⟩ <;> rw [hk]
  · exact State.KeepsNotes.refl s
  · exact (State.keepsNotes_grantSlot hu).trans (h u)

theorem State.keepsNotes_landWrite (s : State) (w : StoreWrite) : s.KeepsNotes (s.landWrite w) :=
  State.keepsNotes_of_ports fun _ => rfl

theorem State.keepsNotes_countLanding (s : State) (p : Port) : s.KeepsNotes (s.countLanding p) :=
  s.keepsNotes_updPort_of_same p
    (f := fun i => { i with fences := ((s.port p).fences.filter fun m => !m.last).map FenceMark.less }) rfl

theorem keepsNotes_postedWriteLanding (h : exec (.postedWriteLanding p) s = .next t) : s.KeepsNotes t := by
  obtain rfl := Host.Outcome.next.inj h
  split
  · exact State.KeepsNotes.refl s
  · refine State.keepsNotes_inSlot fun u => ?_
    unfold State.landPosted
    split
    · exact State.KeepsNotes.refl u
    · next w rest _ =>
      exact (((u.keepsNotes_landWrite w).trans (State.keepsNotes_updPort_of_same _ p rfl)).trans
        (State.keepsNotes_countLanding _ p)).trans (State.keepsNotes_acceptHeld _ p)

theorem keepsNotes_blockingWriteLanding (h : exec (.blockingWriteLanding p) s = .next t) : s.KeepsNotes t := by
  obtain rfl := Host.Outcome.next.inj h
  split
  · split
    · next w _ =>
      exact State.keepsNotes_inSlot fun u => ((u.keepsNotes_landWrite w).trans
        (State.keepsNotes_updPort_of_same _ p rfl)).trans (State.keepsNotes_countLanding _ p)
    · exact State.KeepsNotes.refl s
    · exact State.KeepsNotes.refl s
  · exact State.KeepsNotes.refl s

theorem keepsNotes_blockingReadSlot (h : exec (.blockingReadSlot p) s = .next t) : s.KeepsNotes t := by
  obtain rfl := Host.Outcome.next.inj h
  split
  · split
    · exact State.keepsNotes_inSlot fun u => u.keepsNotes_updPort_of_same p rfl
    · exact State.KeepsNotes.refl s
    · exact State.KeepsNotes.refl s
  · exact State.KeepsNotes.refl s

theorem keepsNotes_fenceRequest (h : exec (.fenceRequest p r) s = .next t) : s.KeepsNotes t := by
  obtain rfl := Host.Outcome.next.inj h
  split
  · unfold State.takeFence
    split
    · exact State.keepsNotes_of_ports fun _ => rfl
    · exact State.keepsNotes_updPort_of_same { s with fenceRequests := s.fenceRequests.erase (p, r) } p rfl
  · exact State.KeepsNotes.refl s

theorem keepsNotes_fenceCompletion (h : exec (.fenceCompletion p r) s = .next t) : s.KeepsNotes t := by
  obtain rfl := Host.Outcome.next.inj h
  split
  · have taken : s.KeepsNotes { s with completions := s.completions.erase (p, r) } := State.keepsNotes_of_ports fun _ => rfl
    generalize ({ s with completions := s.completions.erase (p, r) } : State) = u at taken
    dsimp only
    split
    · exact (taken.trans (u.keepsNotes_setSlot r _)).trans (State.keepsNotes_decideDrain _ r)
    · exact taken
  · exact State.KeepsNotes.refl s

/-! ### The sweep engine's events -/

theorem State.keepsNotes_advanceJob (s : State) (x : Progress) : s.KeepsNotes (s.advanceJob x) := by
  unfold State.advanceJob
  split
  · exact State.keepsNotes_of_ports fun _ => rfl
  · exact State.keepsNotes_of_ports (State.port_startNext _)

theorem keepsNotes_wipeWord (h : exec .wipeWord s = .next t) : s.KeepsNotes t := by
  obtain rfl := Host.Outcome.next.inj h
  split
  · exact State.KeepsNotes.refl s
  · split
    · exact State.keepsNotes_inSlot fun u => (u.keepsNotes_landWrite _).trans (State.keepsNotes_advanceJob _ _)
    · exact State.KeepsNotes.refl s

theorem keepsNotes_digestWord (h : exec .digestWord s = .next t) : s.KeepsNotes t := by
  obtain rfl := Host.Outcome.next.inj h
  split
  · exact State.KeepsNotes.refl s
  · split
    · exact State.keepsNotes_inSlot fun u => u.keepsNotes_advanceJob _
    · exact State.KeepsNotes.refl s

theorem State.keepsNotes_endSweep (s : State) : s.KeepsNotes s.endSweep := by
  rcases s.endSweep_cases with h | ⟨-, -, h⟩ <;> rw [h]
  · exact State.KeepsNotes.refl s
  · exact State.keepsNotes_of_ports fun _ => rfl

theorem keepsNotes_sweepWord (h : exec .sweepWord s = .next t) : s.KeepsNotes t := by
  obtain rfl := Host.Outcome.next.inj h
  split
  · split
    · exact State.KeepsNotes.refl s
    · next n _ =>
      exact State.keepsNotes_inSlot fun u => State.keepsNotes_endSweep { u.zeroWord n with swept := u.swept + 1 }
  · exact State.KeepsNotes.refl s

theorem State.keepsNotes_offerTo (s : State) (q : Option Port) {x : Record} (hx : x.isOverflow = false) :
    s.KeepsNotes (s.offerTo q x) := by
  cases q with
  | none => exact State.KeepsNotes.refl s
  | some p => exact s.keepsNotes_offer p hx

theorem State.keepsNotes_finishWipe (s : State) (r : RegionIx) (g : Region) (q : Option Port) :
    s.KeepsNotes (s.finishWipe r g q) :=
  ((s.keepsNotes_setSlot r _).trans (State.keepsNotes_offerTo _ q rfl)).trans (State.keepsNotes_grantPass _ r)

theorem State.keepsNotes_afterDigest (s : State) (r : RegionIx) (g : Region) : s.KeepsNotes (s.afterDigest r g) := by
  unfold State.afterDigest
  split
  · exact s.keepsNotes_decideDrain r
  · exact State.KeepsNotes.refl s

theorem State.keepsNotes_finishDigest (s : State) (r : RegionIx) (g : Region) (q : Option Port) (v : Word) :
    s.KeepsNotes (s.finishDigest r g q v) :=
  (((s.keepsNotes_setSlot r _).trans (State.keepsNotes_offerTo _ q rfl)).trans (State.keepsNotes_grantPass _ r)).trans
    (State.keepsNotes_afterDigest _ r g)

theorem State.keepsNotes_dropReport (s : State) (l : List Report) : s.KeepsNotes { s with reports := l } :=
  State.keepsNotes_of_ports fun _ => rfl

theorem keepsNotes_wipeCompletion (h : exec (.wipeCompletion r) s = .next t) : s.KeepsNotes t := by
  obtain rfl := Host.Outcome.next.inj h
  split
  · next r' rest _ =>
    split
    · refine (s.keepsNotes_dropReport rest).trans ?_
      dsimp only
      split
      · split
        · exact State.keepsNotes_finishWipe _ _ _ _
        · exact State.KeepsNotes.refl _
      · exact State.KeepsNotes.refl _
    · exact State.KeepsNotes.refl s
  · exact State.KeepsNotes.refl s

theorem keepsNotes_digestCompletion (h : exec (.digestCompletion r) s = .next t) : s.KeepsNotes t := by
  obtain rfl := Host.Outcome.next.inj h
  split
  · next r' v rest _ =>
    split
    · refine (s.keepsNotes_dropReport rest).trans ?_
      dsimp only
      split
      · split
        · exact State.keepsNotes_finishDigest _ _ _ _ _
        · exact State.KeepsNotes.refl _
      · exact State.KeepsNotes.refl _
    · exact State.KeepsNotes.refl s
  · exact State.KeepsNotes.refl s

/-! ### The clock and the pins -/

theorem State.keepsNotes_refclkPeriod (s : State) : s.KeepsNotes s.refclkPeriod := by
  unfold State.refclkPeriod
  split
  · exact State.KeepsNotes.refl s
  · split
    · exact State.keepsNotes_of_ports fun _ => rfl
    · exact s.keepsNotes_takeTick

theorem State.keepsNotes_resume (s : State) (p : Port) : s.KeepsNotes (s.resume p) := by
  unfold State.resume
  split
  · split
    · exact State.KeepsNotes.refl s
    · next c _ => exact (s.keepsNotes_updPort_of_same p rfl).trans (keepsNotes_takeAccess c _)
  · exact State.KeepsNotes.refl s

theorem State.keepsNotes_setLine (s : State) (p : Port) (low : Bool) : s.KeepsNotes (s.setLine p low) :=
  s.keepsNotes_updPort_of_same p rfl

theorem keepsNotes_portReset (h : exec (.portReset p) s = .next t) : s.KeepsNotes t := by
  obtain rfl := Host.Outcome.next.inj h
  split
  · exact State.KeepsNotes.refl s
  · split
    · exact s.keepsNotes_setLine p true
    · exact (s.keepsNotes_setLine p true).trans (State.keepsNotes_resetPort _ p _)

theorem keepsNotes_portResetRelease (h : exec (.portResetRelease p) s = .next t) : s.KeepsNotes t := by
  obtain rfl := Host.Outcome.next.inj h
  split
  · exact (s.keepsNotes_setLine p false).trans (State.keepsNotes_resume _ p)
  · exact State.KeepsNotes.refl s

/-- A part reset empties every queue (R171). -/
theorem State.keepsNotes_partReset (s : State) (b : List Instr) (l : List Extent) : s.KeepsNotes (s.partReset b l) :=
  fun q _ => PortIface.notesLaw_of_nil (by cases q <;> rfl)

theorem keepsNotes_warmReset (h : exec .warmReset s = .next t) : s.KeepsNotes t := by
  obtain rfl := Host.Outcome.next.inj h
  split
  · exact State.KeepsNotes.refl s
  · split <;> exact s.keepsNotes_partReset _ _

theorem keepsNotes_resetRelease {b : BitVec 2} (h : exec (.resetRelease b) s = .next t) : s.KeepsNotes t := by
  obtain rfl := Host.Outcome.next.inj h
  split
  · exact (State.keepsNotes_endSweep { s with rstLow := false, supervisor := some (.ofBits b) }).trans
      (State.keepsNotes_foldl State.keepsNotes_resume allPorts _)
  · exact State.KeepsNotes.refl s

/-! ### Every step -/

theorem keepsNotes_exec {c : Instr} (h : exec c s = .next t) : s.KeepsNotes t := by
  cases c
  case postedWriteAccept p => exact Host.Outcome.next.inj h ▸ s.keepsNotes_acceptHeld p
  case postedWriteLanding => exact keepsNotes_postedWriteLanding h
  case blockingWriteLanding => exact keepsNotes_blockingWriteLanding h
  case blockingReadSlot => exact keepsNotes_blockingReadSlot h
  case wipeWord => exact keepsNotes_wipeWord h
  case digestWord => exact keepsNotes_digestWord h
  case sweepWord => exact keepsNotes_sweepWord h
  case startupSweepEnd => exact Host.Outcome.next.inj h ▸ s.keepsNotes_endSweep
  case fenceRequest => exact keepsNotes_fenceRequest h
  case fenceCompletion => exact keepsNotes_fenceCompletion h
  case drainEnd r => exact Host.Outcome.next.inj h ▸ s.keepsNotes_decideDrain r
  case leaseTick =>
    obtain rfl := Host.Outcome.next.inj h
    split
    · exact State.KeepsNotes.refl s
    · exact s.keepsNotes_takeTick
  case leaseExpiry r => exact Host.Outcome.next.inj h ▸ s.keepsNotes_expireRegion r
  case jobStart => exact Host.Outcome.next.inj h ▸ State.keepsNotes_of_ports fun q => by simp
  case wipeCompletion => exact keepsNotes_wipeCompletion h
  case digestCompletion => exact keepsNotes_digestCompletion h
  case portReset => exact keepsNotes_portReset h
  case portResetRelease => exact keepsNotes_portResetRelease h
  case warmReset => exact keepsNotes_warmReset h
  case resetRelease => exact keepsNotes_resetRelease h
  case powerOn => exact Host.Outcome.next.inj h ▸ s.keepsNotes_partReset [] [⟨0, Config.storePages⟩]
  case aperturePlacementWrite p n f v => exact keepsNotes_exec_host (by cases f <;> rfl) h
  all_goals exact keepsNotes_exec_host rfl h

end

/-- Settles O51: at each port a step leaves the queue, offers it device records, adds a MESSAGE where there is room, pops it
or empties it. -/
theorem stepKeepsNotesLaw : Obligations.StepKeepsNotesLaw := by
  intro s t hs h
  have kept : s.KeepsNotes t := by
    unfold step at h
    split at h
    · exact Host.Outcome.next.inj h ▸ s.keepsNotes_refclkPeriod
    · next c rest _ => exact keepsNotes_exec (s := { s with pending := rest }) h
  exact fun p => kept p (hs p)

end Sys2Proof.Machine
end

section
/-! SUPPORT. How a port enters service: ATTACH (O5) and the rise of PnRST_n (O46). -/

namespace Sys2Proof.Machine

section
variable {s : State} {p : Port}

/-! ### ATTACH -/

theorem launches_attach (p : Port) (c : CmdFields) : Launches (.attach p c) p (c.word 0x01#8) (decideAttach p c) :=
  ⟨rfl, fun _ => rfl⟩

/-- ATTACH's decision reads the part state and its own port's state, as the command found them (R161). -/
theorem decideAttach_launched (s : State) (p : Port) (c : CmdFields) (w : Word) : decideAttach p c (s.launched p w) =
    if s.part = .starting then refuse (s.launched p w) .starting
    else if (s.port p).state = .attached then refuse (s.launched p w) .alreadyAttached
    else ((s.updPort p fun i => { i with state := .attached }).launched p w, .done, 0#32) := by
  rw [decideAttach, State.launched_part, State.launched_port_state, State.updPort_launched _ _ _ _ fun _ => rfl]

/-! ### The rise of PnRST_n -/

theorem exec_portResetRelease (h : (s.port p).resetLow = true) :
    exec (.portResetRelease p) s = .next ((s.setLine p false).resume p) :=
  congrArg Host.Outcome.next (if_pos h)

theorem State.served_setLine_false (s : State) (p : Port) : (s.setLine p false).served p = !s.rstLow := by
  simp [State.served, State.setLine]

theorem State.waiting_setLine (s : State) (p : Port) (low : Bool) :
    ((s.setLine p low).port p).waiting = (s.port p).waiting := by
  rw [State.setLine, State.port_updPort_self]

theorem PortIface.awaitsService.setLine (h : (s.port p).awaitsService p) (low : Bool) :
    ((s.setLine p low).port p).awaitsService p := by
  rw [State.setLine, State.port_updPort_self]
  exact ⟨h.detached, h.free, h.own⟩

end

/-- Settles O5: the branches of the decision in their order. -/
theorem attachDecided : Obligations.AttachDecided := by
  intro s p c ht
  have decided := decideAttach_launched s p c (c.word 0x01#8)
  have h := launches_attach p c
  refine ⟨fun hs => h.refused ht (x := .starting) ?_, fun hs ha => h.refused ht (x := .alreadyAttached) ?_,
    fun hs hd => h.answers ht (x := .done) ?_⟩
  · rw [decided, if_pos hs]
  · rw [decided, if_neg (by simp [hs]), if_pos ha]
  · rw [decided, if_neg (by simp [hs]), if_neg (by simp [hd])]

/-- Settles O46: the rise is the line's change and then the port's turn, in which what waited is as one offered then. -/
theorem portResetReleased : Obligations.PortResetReleased := by
  intro s p hlow hb up
  have rises : exec (.portResetRelease p) s = .next (up.resume p) := exec_portResetRelease hlow
  have hserved : up.served p = !s.rstLow := s.served_setLine_false p
  have hwaiting : (up.port p).waiting = (s.port p).waiting := s.waiting_setLine p false
  refine ⟨?_, fun c hr hw => ?_⟩
  · rintro (hr | hw)
    · rw [rises, State.resume_of_not_served (by simp [hserved, hr])]
    · rw [rises, State.resume_of_none (hwaiting.trans hw)]
  · have awaits : (up.port p).awaitsService p :=
      (hb.awaitsService (p := p) (by simp [State.served, hlow])).setLine false
    calc exec (.portResetRelease p) s = .next (up.resume p) := rises
      _ = serveWaiting (.next up) p := (serveWaiting_eq_resume awaits).1.symm
      _ = exec c (up.updPort p fun i => { i with waiting := none }) :=
        (State.resume_of_waiting (by simp [hserved, hr]) (hwaiting.trans hw)).2

end Sys2Proof.Machine
end

section
/-! SUPPORT. How a host's access stays within its own port (O60): each decision on a region is an event of the lock engine
on that region, and what else an access changes is its own interface's. -/

namespace Sys2Proof.Machine

section
variable {s t u : State} {p q : Port} {r : RegionIx}

/-! ### Decisions on one region -/

theorem State.RegionEvent.ite {c : Prop} [Decidable c] {d e : Decision} (hd : s.RegionEvent d.1 r)
    (he : s.RegionEvent e.1 r) : s.RegionEvent (if c then d else e).1 r := by
  split
  · exact hd
  · exact he

/-- A command refused on a condition (R12, R25). -/
theorem State.RegionEvent.unless {c : Prop} [Decidable c] {x : Result} {d : Decision} (hd : s.RegionEvent d.1 r) :
    s.RegionEvent (if c then refuse s x else d).1 r := .ite (State.RegionEvent.refl s r) hd

/-- A command refused but on a condition (R12, R25). -/
theorem State.RegionEvent.provided {c : Prop} [Decidable c] {x : Result} {d : Decision} (hd : s.RegionEvent d.1 r) :
    s.RegionEvent (if c then d else refuse s x).1 r := .ite hd (State.RegionEvent.refl s r)

theorem State.regionEvent_whenAttached {k : Decision} (h : s.RegionEvent k.1 r) :
    s.RegionEvent (s.whenAttached p k).1 r := .unless (.unless h)

theorem State.regionEvent_onRegion {k : Region → Decision} (h : ∀ g, s.RegionEvent (k g).1 r) :
    s.RegionEvent (s.onRegion p r k).1 r := by
  refine State.regionEvent_whenAttached ?_
  split
  · exact State.RegionEvent.refl s r
  · exact h _

theorem State.regionEvent_asSupervisor {k : Decision} (h : s.RegionEvent k.1 r) :
    s.RegionEvent (s.asSupervisor p k).1 r := State.regionEvent_whenAttached (.provided h)

/-- A supervisor's command on a defined region (R12). -/
theorem State.regionEvent_onDefined {k : Region → Decision} (h : ∀ g, s.RegionEvent (k g).1 r) :
    s.RegionEvent (s.asSupervisor p (match s.slot r with
      | none => refuse s .noRegion
      | some g => k g)).1 r := by
  refine State.regionEvent_asSupervisor ?_
  split
  · exact State.RegionEvent.refl s r
  · exact h _

variable (p : Port) (c : CmdFields) (s : State)

theorem regionEvent_decideAcquire : s.RegionEvent (decideAcquire p c s).1 c.region :=
  State.regionEvent_onRegion fun _ => .unless (.unless (.unless (.unless
    (.ite (s.regionEvent_setSlot _ _) (.provided (s.regionEvent_setSlot _ _))))))

theorem regionEvent_decideCancel : s.RegionEvent (decideCancel p c s).1 c.region :=
  State.regionEvent_onRegion fun _ => .provided ((s.regionEvent_setSlot _ _).trans (State.regionEvent_grantPass _ _))

theorem regionEvent_decideRelease : s.RegionEvent (decideRelease p c s).1 c.region :=
  State.regionEvent_onRegion fun _ => .provided ((s.regionEvent_endHold _ p false).trans (State.regionEvent_grantPass _ _))

theorem regionEvent_decideRenew : s.RegionEvent (decideRenew p c s).1 c.region := by
  refine State.regionEvent_onRegion fun g => ?_
  split
  · exact State.RegionEvent.refl s _
  · exact .unless (s.regionEvent_setSlot _ _)

theorem regionEvent_decideMakePrivate : s.RegionEvent (decideMakePrivate p c s).1 c.region :=
  State.regionEvent_onRegion fun _ => .unless (.unless (.unless (s.regionEvent_setSlot _ _)))

theorem regionEvent_decideRelinquish : s.RegionEvent (decideRelinquish p c s).1 c.region :=
  State.regionEvent_onRegion fun _ => .provided ((s.regionEvent_setSlot _ _).trans (State.regionEvent_sendFence _ _ _ p))

theorem regionEvent_decideDigest : s.RegionEvent (decideDigest p c s).1 c.region :=
  State.regionEvent_onRegion fun _ => .unless (.unless (s.regionEvent_queueJob _ _ _))

theorem regionEvent_decideDefine : s.RegionEvent (decideDefine p c s).1 c.region :=
  State.regionEvent_asSupervisor (.unless (.unless (.unless ((s.regionEvent_setSlot c.region _).trans
    (State.regionEvent_foldl _ (fun t q => t.regionEvent_sendFence c.region c.region q) allPorts _)))))

theorem regionEvent_decideModify : s.RegionEvent (decideModify p c s).1 c.region :=
  State.regionEvent_onDefined fun _ => .provided (s.regionEvent_setSlot _ _)

theorem regionEvent_decideDelete : s.RegionEvent (decideDelete p c s).1 c.region :=
  State.regionEvent_onDefined fun _ => .provided (s.regionEvent_setSlot _ _)

/-- RECLAIM's records and the drain they begin, whatever the drain awaits (R87, R88). -/
theorem State.regionEvent_reclaimed (r : RegionIx) (g : Region) (a : PerPort Bool) :
    s.RegionEvent ((s.reclaimRecords r g).setSlot r (some (g.reclaimed p a))) r :=
  (State.Changes.toRegionEvent (State.continues_reclaimRecords (A := fun _ => False) s r g)).trans
    (State.regionEvent_setSlot _ r _)

theorem regionEvent_decideReclaim : s.RegionEvent (decideReclaim p c s).1 c.region := by
  refine State.regionEvent_onDefined fun g => ?_
  have reclaimed := s.regionEvent_reclaimed p c.region g
  have idle : s.RegionEvent (s.reclaimIdle c.region g p) c.region :=
    (reclaimed _).trans (State.regionEvent_decideDrain _ _)
  cases g.state with
  | free | shared => exact idle
  | exclusive =>
    exact (reclaimed _).trans (State.Changes.toRegionEvent (State.Continues.foldl
      (fun t q => State.continues_fenceIf (A := fun _ => False) t c.region c.region g.holderSet q) allPorts _))
  | ownedBy q =>
    exact ((s.regionEvent_offer c.region q _).trans (State.regionEvent_setSlot _ _ _)).trans
      (State.regionEvent_sendFence _ _ _ q)
  | draining d =>
    obtain ⟨reason, awaited⟩ := d
    cases reason with
    | release _ | define => exact reclaimed awaited
    | relinquish _ | reclaim _ => exact State.RegionEvent.refl s _
  | wiping => exact State.RegionEvent.refl s _

end

/-! ### Another port's interface -/

/-- Port `q`'s interface is in `t` as in `s` but for the records in its notification queue. -/
def State.InterfaceKept (s t : State) (q : Port) : Prop := t.port q = { s.port q with notes := (t.port q).notes }

section
variable {s t u : State} {p q : Port} {c : CmdFields}

theorem State.InterfaceKept.refl (s : State) (q : Port) : s.InterfaceKept s q := rfl

theorem State.InterfaceKept.trans (h : s.InterfaceKept t q) (k : t.InterfaceKept u q) : s.InterfaceKept u q := by
  unfold State.InterfaceKept at *
  rw [k, h]

theorem State.othersKept.interfaceKept (h : s.othersKept t p) (hq : q ≠ p) : s.InterfaceKept t q := by
  rw [State.InterfaceKept, h q hq]

theorem State.interfaceKept_updPort (s : State) (f : PortIface → PortIface) (hq : q ≠ p) :
    s.InterfaceKept (s.updPort p f) q := (s.othersKept_updPort p f).interfaceKept hq

theorem State.interfaceKept_whenAttached {k : Decision} (h : s.InterfaceKept k.1 q) :
    s.InterfaceKept (s.whenAttached p k).1 q := by
  unfold State.whenAttached
  split
  · exact State.InterfaceKept.refl s q
  · split
    · exact State.InterfaceKept.refl s q
    · exact h

/-- A command word is its decision between two changes of its own port's window (R175). -/
theorem State.interfaceKept_launch {word : Word} {decide : State → Decision} (hq : q ≠ p)
    (h : ∀ s : State, s.InterfaceKept (decide s).1 q) : s.InterfaceKept (launch p word decide s) q := by
  rw [launch_eq]
  exact ((s.interfaceKept_updPort _ hq).trans (h (s.launched p word))).trans (State.interfaceKept_updPort _ _ hq)

theorem State.interfaceKept_launch_region {word : Word} {decide : State → Decision} {r : RegionIx} (hq : q ≠ p)
    (h : ∀ s : State, s.RegionEvent (decide s).1 r) : s.InterfaceKept (launch p word decide s) q :=
  State.interfaceKept_launch hq fun s => (h s).port q

/-- DETACH leaves each region as a release or a withdrawal, which offers others their GRANTED records (R41, R163). -/
theorem interfaceKept_decideDetach (hq : q ≠ p) (s : State) : s.InterfaceKept (decideDetach p c s).1 q :=
  State.interfaceKept_whenAttached
    (State.InterfaceKept.trans ((s.lockEvent_leaveAll p).port q) (State.interfaceKept_updPort _ _ hq))

/-- MESSAGE appends to its target's queue (R154). -/
theorem interfaceKept_decideMessage (q : Port) (s : State) : s.InterfaceKept (decideMessage p c s).1 q := by
  refine State.interfaceKept_whenAttached ?_
  split
  · exact State.InterfaceKept.refl s q
  · split
    · exact State.InterfaceKept.refl s q
    · rw [State.InterfaceKept, State.port_updPort]
      split
      · next h => rw [h]
      · rfl

/-- A port reset cuts the port's holds and waits, which offers others their GRANTED records (R165). -/
theorem State.interfaceKept_resetPort (s : State) (o : Option Instr) (hq : q ≠ p) :
    s.InterfaceKept (s.resetPort p o) q :=
  (State.interfaceKept_updPort (s.reportMarks p) (fun i => i.restored o) hq).trans
    ((State.lockEvent_cutAll ((s.reportMarks p).updPort p fun i => i.restored o) p).port q)

/-- EVICT resets its target alone (R168). -/
theorem interfaceKept_decideEvict (hq : q ≠ c.target) (s : State) : s.InterfaceKept (decideEvict p c s).1 q := by
  have reset := s.interfaceKept_resetPort none hq
  unfold decideEvict
  generalize s.resetPort c.target none = u at reset ⊢
  refine State.interfaceKept_whenAttached ?_
  split
  · split
    · exact State.InterfaceKept.refl s q
    · exact reset
  · exact State.InterfaceKept.refl s q

/-- An access that port `p`'s interface takes (R174). -/
theorem interfaceKept_takeAccess {c : Instr} (hc : (encodeBus c).map Prod.fst = some p) (hq : q ≠ p)
    (he : ∀ f, c = .evict p f → f.target ≠ q) : s.InterfaceKept (takeAccess c s) q := by
  cases c with
  | attach x c => obtain rfl := Option.some.inj hc; exact (othersKept_takeAttach x c s).interfaceKept hq
  | detach x c => obtain rfl := Option.some.inj hc; exact State.interfaceKept_launch hq (interfaceKept_decideDetach hq)
  | acquire x c => obtain rfl := Option.some.inj hc; exact State.interfaceKept_launch_region hq (regionEvent_decideAcquire x c)
  | cancel x c => obtain rfl := Option.some.inj hc; exact State.interfaceKept_launch_region hq (regionEvent_decideCancel x c)
  | release x c => obtain rfl := Option.some.inj hc; exact State.interfaceKept_launch_region hq (regionEvent_decideRelease x c)
  | renew x c => obtain rfl := Option.some.inj hc; exact State.interfaceKept_launch_region hq (regionEvent_decideRenew x c)
  | makePrivate x c =>
    obtain rfl := Option.some.inj hc; exact State.interfaceKept_launch_region hq (regionEvent_decideMakePrivate x c)
  | relinquish x c =>
    obtain rfl := Option.some.inj hc; exact State.interfaceKept_launch_region hq (regionEvent_decideRelinquish x c)
  | digest x c => obtain rfl := Option.some.inj hc; exact State.interfaceKept_launch_region hq (regionEvent_decideDigest x c)
  | message x c => obtain rfl := Option.some.inj hc; exact State.interfaceKept_launch hq (interfaceKept_decideMessage q)
  | define x c => obtain rfl := Option.some.inj hc; exact State.interfaceKept_launch_region hq (regionEvent_decideDefine x c)
  | modify x c => obtain rfl := Option.some.inj hc; exact State.interfaceKept_launch_region hq (regionEvent_decideModify x c)
  | delete x c => obtain rfl := Option.some.inj hc; exact State.interfaceKept_launch_region hq (regionEvent_decideDelete x c)
  | reclaim x c => obtain rfl := Option.some.inj hc; exact State.interfaceKept_launch_region hq (regionEvent_decideReclaim x c)
  | evict x c =>
    obtain rfl := Option.some.inj hc; exact State.interfaceKept_launch hq (interfaceKept_decideEvict (he c rfl).symm)
  | sarb x v => obtain rfl := Option.some.inj hc; exact (othersKept_takeSarb x v s).interfaceKept hq
  | viewRead x a => obtain rfl := Option.some.inj hc; exact (othersKept_takeViewRead x a s).interfaceKept hq
  | viewWrite x a be v => obtain rfl := Option.some.inj hc; exact (othersKept_takeViewWrite x a be v s).interfaceKept hq
  | aperturePlacementWrite x n f v =>
    obtain rfl : x = p := by cases f <;> exact Option.some.inj hc
    exact s.interfaceKept_updPort _ hq
  | badCommand x _ | npop x _ | fclr x _ | nmask x _ | lwarn x _ | fill x _ | attrWrite x _ _ | pstatRead x
  | windowWrite x _ _ _ => obtain rfl := Option.some.inj hc; exact s.interfaceKept_updPort _ hq
  | _ => exact State.InterfaceKept.refl s q

end

/-- Settles O60: the access is taken, waits for service, or was overtaken by a reset, and the last two are matters of its
own port. -/
theorem windowsAreIsolated : Obligations.WindowsAreIsolated := by
  intro s t p q b c hb hq he h
  have hc : (encodeBus c).map Prod.fst = some p := congrArg (Option.map Prod.fst) hb
  rw [exec_host_of_port s hc] at h
  obtain ⟨-, ⟨-, rfl⟩ | ⟨-, ⟨-, rfl⟩ | ⟨-, rfl⟩⟩⟩ := hostAccess_next h
  · exact interfaceKept_takeAccess hc hq he
  · exact s.interfaceKept_updPort _ hq
  · exact s.interfaceKept_updPort _ hq

end Sys2Proof.Machine
end

section
/-! SUPPORT. The obligation on a PSTAT read (O22): the fields of the status word, and the two flags the read clears
(11.3). -/

namespace Sys2Proof.Machine

section
variable {s : State} {p : Port}

/-- The six flags of PSTAT (11.3). -/
theorem State.pstat_flags (s : State) (p : Port) :
    (s.pstat p).getLsbD 0 = decide ((s.port p).state = .attached) ∧
    (s.pstat p).getLsbD 1 = decide (s.supervisor = some p) ∧ (s.pstat p).getLsbD 2 = decide (s.part = .ready) ∧
    (s.pstat p).getLsbD 3 = (s.port p).fault.isSome ∧ (s.pstat p).getLsbD 4 = (s.port p).popEmpty ∧
    (s.pstat p).getLsbD 5 = (s.port p).apertureRefused := by
  simp (disch := omega) only [State.pstat, BitVec.getLsbD_or, getLsbD_flag_self, getLsbD_flag_ne,
    getLsbD_field_above, Bool.or_false, Bool.false_or, and_self]

/-- The two counts of PSTAT, and the gaps between the fields (11.3). -/
theorem State.pstat_counts (hp : (s.port p).posted.length < 2 ^ 4) (hn : (s.port p).notes.length < 2 ^ 5) :
    (s.pstat p).extractLsb' 6 2 = 0#2 ∧ ((s.pstat p).extractLsb' 8 4).toNat = (s.port p).posted.length ∧
    (s.pstat p).extractLsb' 12 4 = 0#4 ∧ ((s.pstat p).extractLsb' 16 5).toNat = (s.port p).notes.length ∧
    (s.pstat p).extractLsb' 21 11 = 0#11 := by
  simp (disch := omega) only [State.pstat, BitVec.extractLsb'_or, extract_field, extract_field_above,
    extract_field_below, extract_flag_off, BitVec.or_zero, BitVec.zero_or, BitVec.toNat_ofNat, Nat.mod_eq_of_lt, and_self]

theorem exec_pstatRead (ht : s.takes p) : exec (.pstatRead p) s =
    .next (s.updPort p fun i => { i with bus := .read (s.pstat p), popEmpty := false, apertureRefused := false }) :=
  hostAccess_of_takes (c := .pstatRead p) (take := takePstatRead p) rfl ht

end

/-- Settles O22: the word read is PSTAT as it stands, within the bounds of the two queues (R127, R141). -/
theorem pstatReadFields : Obligations.PstatReadFields := by
  intro s p ht hp hn i
  obtain ⟨attached, supervisor, ready, fault, popEmpty, refused⟩ := s.pstat_flags p
  obtain ⟨gap6, posted, gap12, notes, gap21⟩ := State.pstat_counts (s := s) (p := p) (by omega) (by omega)
  exact ⟨s.pstat p, exec_pstatRead ht, attached, supervisor, ready, fault, popEmpty, refused, gap6, posted, gap12, notes,
    gap21⟩

end Sys2Proof.Machine
end

section
/-! SUPPORT. The obligation on a step with a command waiting (O1). -/

namespace Sys2Proof.Machine

/-- Settles O1: of the two cases of a step, the other is the empty queue's, `step_of_pending_nil`. -/
theorem stepRunsFrontCommand : Obligations.StepRunsFrontCommand := by
  intro s c rest hqueue
  rw [step, hqueue]

end Sys2Proof.Machine
end
